-- ==== Sys2Proof/Word.lean ====
section
/-! DEFINITION. The word types of the core: 00_scope.md R7 (data width 8, address width 16) and R9. -/

namespace Sys2Proof

/-- `u8`: a byte of memory, an 8-bit register (R7, R9). -/
abbrev Byte := BitVec 8

/-- `u16`: an address or the program counter (R7, R9). -/
abbrev Addr := BitVec 16

end Sys2Proof
end

