-- ==== Sys2Proof/Config.lean ====
section
/-! DEFINITION. What one implementation or its surroundings fix and the spec leaves to them (00_scope.md R8).

The parameters of R8, the bus and the two count tables, are data of the state (`Params` in Machine/State.lean), so that every
claim is about all of them; their reference values are flat RAM and the columns of the opcode table in Decode.lean. -/

namespace Sys2Proof.Config

/-- The number of byte addresses of the one address space (20_memory.md R50). -/
def addressSpace : Nat := 65536

/-- What a byte of memory that nothing has written reads as.
DESIGN CHOICE, unsafe (log 2): the spec leaves the bus's initial contents to the caller (93_implementation_defined.md U3);
zero is what the flat RAM of the spec's own test vectors starts from. -/
def unlistedByte : Byte := 0x00#8

/-- FREE VALUE: what a device read at an address answers in a state of the devices, and the devices' state after it, where the
parameters do not say (20_memory.md R52, R62: it is the bus's; log 16). It has no body, so nothing can be proved about it. -/
opaque deviceRead : Nat → Addr → Byte × Nat

/-- FREE VALUE: the devices' state after a device write, where the parameters do not say (20_memory.md R52; log 16). It has no
body either. -/
opaque deviceWrite : Nat → Addr → Byte → Nat

end Sys2Proof.Config
end

