-- ==== Sys2Proof/Syntax.lean ====
section
/-! DEFINITION. The abstract syntax: the 56 mnemonics, the 13 addressing modes, an entry of the opcode table
(30_encoding.md R81), the operand forms (R83, R90) and the instructions, one constructor per row of
spec/opcode_table.json. A 16-bit operand is held as the address its two bytes name (20_memory.md R53). -/

namespace Sys2Proof

/-- The 56 mnemonics (00_scope.md R1, R7). -/
inductive Mnemonic
  | lda | ldx | ldy | sta | stx | sty | tax | tay | txa | tya | tsx | txs | pha | php
  | pla | plp | and | eor | ora | bit | adc | sbc | cmp | cpx | cpy | inc | dec | inx
  | iny | dex | dey | asl | lsr | rol | ror | jmp | jsr | rts | bcc | bcs | beq | bne
  | bmi | bpl | bvc | bvs | clc | cld | cli | clv | sec | sed | sei | brk | rti | nop
  deriving DecidableEq, Repr

/-- The 13 addressing modes (30_encoding.md R81). -/
inductive Mode
  | implicit | accumulator | immediate | zeroPage | zeroPageX | zeroPageY | absolute | absoluteX | absoluteY
  | relative | indirect | indirectX | indirectY
  deriving DecidableEq, Repr

/-- The number of operand bytes a mode consumes (30_encoding.md R83, R103). -/
def Mode.operandBytes : Mode → Nat
  | .implicit | .accumulator => 0
  | .immediate | .zeroPage | .zeroPageX | .zeroPageY | .relative | .indirectX | .indirectY => 1
  | .absolute | .absoluteX | .absoluteY | .indirect => 2

/-- An entry `{mnem, mode, len, base, pen}` of the opcode table (30_encoding.md R81). -/
structure OpEntry where
  mnem : Mnemonic
  mode : Mode
  /-- instruction length in bytes -/
  len  : Nat
  /-- base cycle count -/
  base : Nat
  /-- does a page crossing in the resolver add a cycle (R105) -/
  pen  : Bool
  deriving DecidableEq, Repr

/-- The operand forms that name a place in memory, with their operand bytes (30_encoding.md R94 to R98, R100 to R102). -/
inductive AddrForm
  | zeroPage  (b : Byte)
  | zeroPageX (b : Byte)
  | zeroPageY (b : Byte)
  | absolute  (addr : Addr)
  | absoluteX (addr : Addr)
  | absoluteY (addr : Addr)
  | indirect  (ptr : Addr)
  | indirectX (b : Byte)
  | indirectY (b : Byte)
  deriving DecidableEq, Repr

/-- The operand of an instruction as its bytes give it, before it is resolved (30_encoding.md R83, R90). -/
inductive Operand
  | implicit
  | accumulator
  | immediate (v : Byte)
  | relative  (off : Byte)
  | memory    (f : AddrForm)
  deriving DecidableEq, Repr

def AddrForm.mode : AddrForm → Mode
  | .zeroPage _  => .zeroPage
  | .zeroPageX _ => .zeroPageX
  | .zeroPageY _ => .zeroPageY
  | .absolute _  => .absolute
  | .absoluteX _ => .absoluteX
  | .absoluteY _ => .absoluteY
  | .indirect _  => .indirect
  | .indirectX _ => .indirectX
  | .indirectY _ => .indirectY

def Operand.mode : Operand → Mode
  | .implicit    => .implicit
  | .accumulator => .accumulator
  | .immediate _ => .immediate
  | .relative _  => .relative
  | .memory f    => f.mode

/-- The instructions: one constructor per row of spec/opcode_table.json (30_encoding.md R107). -/
inductive Instr
  | ldaImm (v : Byte)
  | ldaZp (b : Byte)
  | ldaZpX (b : Byte)
  | ldaAbs (addr : Addr)
  | ldaAbsX (addr : Addr)
  | ldaAbsY (addr : Addr)
  | ldaIndX (b : Byte)
  | ldaIndY (b : Byte)
  | ldxImm (v : Byte)
  | ldxZp (b : Byte)
  | ldxZpY (b : Byte)
  | ldxAbs (addr : Addr)
  | ldxAbsY (addr : Addr)
  | ldyImm (v : Byte)
  | ldyZp (b : Byte)
  | ldyZpX (b : Byte)
  | ldyAbs (addr : Addr)
  | ldyAbsX (addr : Addr)
  | staZp (b : Byte)
  | staZpX (b : Byte)
  | staAbs (addr : Addr)
  | staAbsX (addr : Addr)
  | staAbsY (addr : Addr)
  | staIndX (b : Byte)
  | staIndY (b : Byte)
  | stxZp (b : Byte)
  | stxZpY (b : Byte)
  | stxAbs (addr : Addr)
  | styZp (b : Byte)
  | styZpX (b : Byte)
  | styAbs (addr : Addr)
  | tax
  | tay
  | txa
  | tya
  | tsx
  | txs
  | pha
  | php
  | pla
  | plp
  | andImm (v : Byte)
  | andZp (b : Byte)
  | andZpX (b : Byte)
  | andAbs (addr : Addr)
  | andAbsX (addr : Addr)
  | andAbsY (addr : Addr)
  | andIndX (b : Byte)
  | andIndY (b : Byte)
  | eorImm (v : Byte)
  | eorZp (b : Byte)
  | eorZpX (b : Byte)
  | eorAbs (addr : Addr)
  | eorAbsX (addr : Addr)
  | eorAbsY (addr : Addr)
  | eorIndX (b : Byte)
  | eorIndY (b : Byte)
  | oraImm (v : Byte)
  | oraZp (b : Byte)
  | oraZpX (b : Byte)
  | oraAbs (addr : Addr)
  | oraAbsX (addr : Addr)
  | oraAbsY (addr : Addr)
  | oraIndX (b : Byte)
  | oraIndY (b : Byte)
  | bitZp (b : Byte)
  | bitAbs (addr : Addr)
  | adcImm (v : Byte)
  | adcZp (b : Byte)
  | adcZpX (b : Byte)
  | adcAbs (addr : Addr)
  | adcAbsX (addr : Addr)
  | adcAbsY (addr : Addr)
  | adcIndX (b : Byte)
  | adcIndY (b : Byte)
  | sbcImm (v : Byte)
  | sbcZp (b : Byte)
  | sbcZpX (b : Byte)
  | sbcAbs (addr : Addr)
  | sbcAbsX (addr : Addr)
  | sbcAbsY (addr : Addr)
  | sbcIndX (b : Byte)
  | sbcIndY (b : Byte)
  | cmpImm (v : Byte)
  | cmpZp (b : Byte)
  | cmpZpX (b : Byte)
  | cmpAbs (addr : Addr)
  | cmpAbsX (addr : Addr)
  | cmpAbsY (addr : Addr)
  | cmpIndX (b : Byte)
  | cmpIndY (b : Byte)
  | cpxImm (v : Byte)
  | cpxZp (b : Byte)
  | cpxAbs (addr : Addr)
  | cpyImm (v : Byte)
  | cpyZp (b : Byte)
  | cpyAbs (addr : Addr)
  | incZp (b : Byte)
  | incZpX (b : Byte)
  | incAbs (addr : Addr)
  | incAbsX (addr : Addr)
  | decZp (b : Byte)
  | decZpX (b : Byte)
  | decAbs (addr : Addr)
  | decAbsX (addr : Addr)
  | inx
  | iny
  | dex
  | dey
  | aslAcc
  | aslZp (b : Byte)
  | aslZpX (b : Byte)
  | aslAbs (addr : Addr)
  | aslAbsX (addr : Addr)
  | lsrAcc
  | lsrZp (b : Byte)
  | lsrZpX (b : Byte)
  | lsrAbs (addr : Addr)
  | lsrAbsX (addr : Addr)
  | rolAcc
  | rolZp (b : Byte)
  | rolZpX (b : Byte)
  | rolAbs (addr : Addr)
  | rolAbsX (addr : Addr)
  | rorAcc
  | rorZp (b : Byte)
  | rorZpX (b : Byte)
  | rorAbs (addr : Addr)
  | rorAbsX (addr : Addr)
  | jmpAbs (addr : Addr)
  | jmpInd (ptr : Addr)
  | jsrAbs (addr : Addr)
  | rts
  | bcc (off : Byte)
  | bcs (off : Byte)
  | beq (off : Byte)
  | bne (off : Byte)
  | bmi (off : Byte)
  | bpl (off : Byte)
  | bvc (off : Byte)
  | bvs (off : Byte)
  | clc
  | cld
  | cli
  | clv
  | sec
  | sed
  | sei
  | brk
  | rti
  | nop
  deriving DecidableEq, Repr

/-- The mnemonic of an instruction. -/
def Instr.mnemonic : Instr → Mnemonic
  | .ldaImm _ => .lda
  | .ldaZp _ => .lda
  | .ldaZpX _ => .lda
  | .ldaAbs _ => .lda
  | .ldaAbsX _ => .lda
  | .ldaAbsY _ => .lda
  | .ldaIndX _ => .lda
  | .ldaIndY _ => .lda
  | .ldxImm _ => .ldx
  | .ldxZp _ => .ldx
  | .ldxZpY _ => .ldx
  | .ldxAbs _ => .ldx
  | .ldxAbsY _ => .ldx
  | .ldyImm _ => .ldy
  | .ldyZp _ => .ldy
  | .ldyZpX _ => .ldy
  | .ldyAbs _ => .ldy
  | .ldyAbsX _ => .ldy
  | .staZp _ => .sta
  | .staZpX _ => .sta
  | .staAbs _ => .sta
  | .staAbsX _ => .sta
  | .staAbsY _ => .sta
  | .staIndX _ => .sta
  | .staIndY _ => .sta
  | .stxZp _ => .stx
  | .stxZpY _ => .stx
  | .stxAbs _ => .stx
  | .styZp _ => .sty
  | .styZpX _ => .sty
  | .styAbs _ => .sty
  | .tax => .tax
  | .tay => .tay
  | .txa => .txa
  | .tya => .tya
  | .tsx => .tsx
  | .txs => .txs
  | .pha => .pha
  | .php => .php
  | .pla => .pla
  | .plp => .plp
  | .andImm _ => .and
  | .andZp _ => .and
  | .andZpX _ => .and
  | .andAbs _ => .and
  | .andAbsX _ => .and
  | .andAbsY _ => .and
  | .andIndX _ => .and
  | .andIndY _ => .and
  | .eorImm _ => .eor
  | .eorZp _ => .eor
  | .eorZpX _ => .eor
  | .eorAbs _ => .eor
  | .eorAbsX _ => .eor
  | .eorAbsY _ => .eor
  | .eorIndX _ => .eor
  | .eorIndY _ => .eor
  | .oraImm _ => .ora
  | .oraZp _ => .ora
  | .oraZpX _ => .ora
  | .oraAbs _ => .ora
  | .oraAbsX _ => .ora
  | .oraAbsY _ => .ora
  | .oraIndX _ => .ora
  | .oraIndY _ => .ora
  | .bitZp _ => .bit
  | .bitAbs _ => .bit
  | .adcImm _ => .adc
  | .adcZp _ => .adc
  | .adcZpX _ => .adc
  | .adcAbs _ => .adc
  | .adcAbsX _ => .adc
  | .adcAbsY _ => .adc
  | .adcIndX _ => .adc
  | .adcIndY _ => .adc
  | .sbcImm _ => .sbc
  | .sbcZp _ => .sbc
  | .sbcZpX _ => .sbc
  | .sbcAbs _ => .sbc
  | .sbcAbsX _ => .sbc
  | .sbcAbsY _ => .sbc
  | .sbcIndX _ => .sbc
  | .sbcIndY _ => .sbc
  | .cmpImm _ => .cmp
  | .cmpZp _ => .cmp
  | .cmpZpX _ => .cmp
  | .cmpAbs _ => .cmp
  | .cmpAbsX _ => .cmp
  | .cmpAbsY _ => .cmp
  | .cmpIndX _ => .cmp
  | .cmpIndY _ => .cmp
  | .cpxImm _ => .cpx
  | .cpxZp _ => .cpx
  | .cpxAbs _ => .cpx
  | .cpyImm _ => .cpy
  | .cpyZp _ => .cpy
  | .cpyAbs _ => .cpy
  | .incZp _ => .inc
  | .incZpX _ => .inc
  | .incAbs _ => .inc
  | .incAbsX _ => .inc
  | .decZp _ => .dec
  | .decZpX _ => .dec
  | .decAbs _ => .dec
  | .decAbsX _ => .dec
  | .inx => .inx
  | .iny => .iny
  | .dex => .dex
  | .dey => .dey
  | .aslAcc => .asl
  | .aslZp _ => .asl
  | .aslZpX _ => .asl
  | .aslAbs _ => .asl
  | .aslAbsX _ => .asl
  | .lsrAcc => .lsr
  | .lsrZp _ => .lsr
  | .lsrZpX _ => .lsr
  | .lsrAbs _ => .lsr
  | .lsrAbsX _ => .lsr
  | .rolAcc => .rol
  | .rolZp _ => .rol
  | .rolZpX _ => .rol
  | .rolAbs _ => .rol
  | .rolAbsX _ => .rol
  | .rorAcc => .ror
  | .rorZp _ => .ror
  | .rorZpX _ => .ror
  | .rorAbs _ => .ror
  | .rorAbsX _ => .ror
  | .jmpAbs _ => .jmp
  | .jmpInd _ => .jmp
  | .jsrAbs _ => .jsr
  | .rts => .rts
  | .bcc _ => .bcc
  | .bcs _ => .bcs
  | .beq _ => .beq
  | .bne _ => .bne
  | .bmi _ => .bmi
  | .bpl _ => .bpl
  | .bvc _ => .bvc
  | .bvs _ => .bvs
  | .clc => .clc
  | .cld => .cld
  | .cli => .cli
  | .clv => .clv
  | .sec => .sec
  | .sed => .sed
  | .sei => .sei
  | .brk => .brk
  | .rti => .rti
  | .nop => .nop

/-- The operand of an instruction. -/
def Instr.operand : Instr → Operand
  | .ldaImm v => .immediate v
  | .ldaZp b => .memory (.zeroPage b)
  | .ldaZpX b => .memory (.zeroPageX b)
  | .ldaAbs addr => .memory (.absolute addr)
  | .ldaAbsX addr => .memory (.absoluteX addr)
  | .ldaAbsY addr => .memory (.absoluteY addr)
  | .ldaIndX b => .memory (.indirectX b)
  | .ldaIndY b => .memory (.indirectY b)
  | .ldxImm v => .immediate v
  | .ldxZp b => .memory (.zeroPage b)
  | .ldxZpY b => .memory (.zeroPageY b)
  | .ldxAbs addr => .memory (.absolute addr)
  | .ldxAbsY addr => .memory (.absoluteY addr)
  | .ldyImm v => .immediate v
  | .ldyZp b => .memory (.zeroPage b)
  | .ldyZpX b => .memory (.zeroPageX b)
  | .ldyAbs addr => .memory (.absolute addr)
  | .ldyAbsX addr => .memory (.absoluteX addr)
  | .staZp b => .memory (.zeroPage b)
  | .staZpX b => .memory (.zeroPageX b)
  | .staAbs addr => .memory (.absolute addr)
  | .staAbsX addr => .memory (.absoluteX addr)
  | .staAbsY addr => .memory (.absoluteY addr)
  | .staIndX b => .memory (.indirectX b)
  | .staIndY b => .memory (.indirectY b)
  | .stxZp b => .memory (.zeroPage b)
  | .stxZpY b => .memory (.zeroPageY b)
  | .stxAbs addr => .memory (.absolute addr)
  | .styZp b => .memory (.zeroPage b)
  | .styZpX b => .memory (.zeroPageX b)
  | .styAbs addr => .memory (.absolute addr)
  | .tax => .implicit
  | .tay => .implicit
  | .txa => .implicit
  | .tya => .implicit
  | .tsx => .implicit
  | .txs => .implicit
  | .pha => .implicit
  | .php => .implicit
  | .pla => .implicit
  | .plp => .implicit
  | .andImm v => .immediate v
  | .andZp b => .memory (.zeroPage b)
  | .andZpX b => .memory (.zeroPageX b)
  | .andAbs addr => .memory (.absolute addr)
  | .andAbsX addr => .memory (.absoluteX addr)
  | .andAbsY addr => .memory (.absoluteY addr)
  | .andIndX b => .memory (.indirectX b)
  | .andIndY b => .memory (.indirectY b)
  | .eorImm v => .immediate v
  | .eorZp b => .memory (.zeroPage b)
  | .eorZpX b => .memory (.zeroPageX b)
  | .eorAbs addr => .memory (.absolute addr)
  | .eorAbsX addr => .memory (.absoluteX addr)
  | .eorAbsY addr => .memory (.absoluteY addr)
  | .eorIndX b => .memory (.indirectX b)
  | .eorIndY b => .memory (.indirectY b)
  | .oraImm v => .immediate v
  | .oraZp b => .memory (.zeroPage b)
  | .oraZpX b => .memory (.zeroPageX b)
  | .oraAbs addr => .memory (.absolute addr)
  | .oraAbsX addr => .memory (.absoluteX addr)
  | .oraAbsY addr => .memory (.absoluteY addr)
  | .oraIndX b => .memory (.indirectX b)
  | .oraIndY b => .memory (.indirectY b)
  | .bitZp b => .memory (.zeroPage b)
  | .bitAbs addr => .memory (.absolute addr)
  | .adcImm v => .immediate v
  | .adcZp b => .memory (.zeroPage b)
  | .adcZpX b => .memory (.zeroPageX b)
  | .adcAbs addr => .memory (.absolute addr)
  | .adcAbsX addr => .memory (.absoluteX addr)
  | .adcAbsY addr => .memory (.absoluteY addr)
  | .adcIndX b => .memory (.indirectX b)
  | .adcIndY b => .memory (.indirectY b)
  | .sbcImm v => .immediate v
  | .sbcZp b => .memory (.zeroPage b)
  | .sbcZpX b => .memory (.zeroPageX b)
  | .sbcAbs addr => .memory (.absolute addr)
  | .sbcAbsX addr => .memory (.absoluteX addr)
  | .sbcAbsY addr => .memory (.absoluteY addr)
  | .sbcIndX b => .memory (.indirectX b)
  | .sbcIndY b => .memory (.indirectY b)
  | .cmpImm v => .immediate v
  | .cmpZp b => .memory (.zeroPage b)
  | .cmpZpX b => .memory (.zeroPageX b)
  | .cmpAbs addr => .memory (.absolute addr)
  | .cmpAbsX addr => .memory (.absoluteX addr)
  | .cmpAbsY addr => .memory (.absoluteY addr)
  | .cmpIndX b => .memory (.indirectX b)
  | .cmpIndY b => .memory (.indirectY b)
  | .cpxImm v => .immediate v
  | .cpxZp b => .memory (.zeroPage b)
  | .cpxAbs addr => .memory (.absolute addr)
  | .cpyImm v => .immediate v
  | .cpyZp b => .memory (.zeroPage b)
  | .cpyAbs addr => .memory (.absolute addr)
  | .incZp b => .memory (.zeroPage b)
  | .incZpX b => .memory (.zeroPageX b)
  | .incAbs addr => .memory (.absolute addr)
  | .incAbsX addr => .memory (.absoluteX addr)
  | .decZp b => .memory (.zeroPage b)
  | .decZpX b => .memory (.zeroPageX b)
  | .decAbs addr => .memory (.absolute addr)
  | .decAbsX addr => .memory (.absoluteX addr)
  | .inx => .implicit
  | .iny => .implicit
  | .dex => .implicit
  | .dey => .implicit
  | .aslAcc => .accumulator
  | .aslZp b => .memory (.zeroPage b)
  | .aslZpX b => .memory (.zeroPageX b)
  | .aslAbs addr => .memory (.absolute addr)
  | .aslAbsX addr => .memory (.absoluteX addr)
  | .lsrAcc => .accumulator
  | .lsrZp b => .memory (.zeroPage b)
  | .lsrZpX b => .memory (.zeroPageX b)
  | .lsrAbs addr => .memory (.absolute addr)
  | .lsrAbsX addr => .memory (.absoluteX addr)
  | .rolAcc => .accumulator
  | .rolZp b => .memory (.zeroPage b)
  | .rolZpX b => .memory (.zeroPageX b)
  | .rolAbs addr => .memory (.absolute addr)
  | .rolAbsX addr => .memory (.absoluteX addr)
  | .rorAcc => .accumulator
  | .rorZp b => .memory (.zeroPage b)
  | .rorZpX b => .memory (.zeroPageX b)
  | .rorAbs addr => .memory (.absolute addr)
  | .rorAbsX addr => .memory (.absoluteX addr)
  | .jmpAbs addr => .memory (.absolute addr)
  | .jmpInd ptr => .memory (.indirect ptr)
  | .jsrAbs addr => .memory (.absolute addr)
  | .rts => .implicit
  | .bcc off => .relative off
  | .bcs off => .relative off
  | .beq off => .relative off
  | .bne off => .relative off
  | .bmi off => .relative off
  | .bpl off => .relative off
  | .bvc off => .relative off
  | .bvs off => .relative off
  | .clc => .implicit
  | .cld => .implicit
  | .cli => .implicit
  | .clv => .implicit
  | .sec => .implicit
  | .sed => .implicit
  | .sei => .implicit
  | .brk => .implicit
  | .rti => .implicit
  | .nop => .implicit

/-- The addressing mode of an instruction. -/
def Instr.mode (i : Instr) : Mode := i.operand.mode

end Sys2Proof
end

