-- ==== Sys2Proof/WellFormed.lean ====
section
/-! DEFINITION. Well-formedness. An operand byte has no reserved value (30_encoding.md R109), and the fields of Instr have
exactly the widths of the encoding, so an instruction is checked for one thing: that its mnemonic has a form in its
addressing mode, by the "Operands" list of the mnemonic's own rule. Entries of the opcode table are checked for what
30_encoding.md R83 and R105 say of them. Instruction bytes are checked in Decode.lean, which knows the table. -/

namespace Sys2Proof

/-- The modes a mnemonic has a form in: the "Operands" line of its rule (40_load_store.md R131 to R136, 41_transfer_stack.md,
42_logic_arith.md R161 to R173, 43_incdec_shift.md R181 to R191, 44_control.md R200 to R212, 45_flags_system.md). -/
def Mnemonic.modes : Mnemonic → List Mode
  | .lda | .and | .eor | .ora | .adc | .sbc | .cmp =>
    [.immediate, .zeroPage, .zeroPageX, .absolute, .absoluteX, .absoluteY, .indirectX, .indirectY]
  | .ldx =>
    [.immediate, .zeroPage, .zeroPageY, .absolute, .absoluteY]
  | .ldy =>
    [.immediate, .zeroPage, .zeroPageX, .absolute, .absoluteX]
  | .sta =>
    [.zeroPage, .zeroPageX, .absolute, .absoluteX, .absoluteY, .indirectX, .indirectY]
  | .stx =>
    [.zeroPage, .zeroPageY, .absolute]
  | .sty =>
    [.zeroPage, .zeroPageX, .absolute]
  | .tax | .tay | .txa | .tya | .tsx | .txs | .pha | .php | .pla | .plp | .inx | .iny
  | .dex | .dey | .rts | .clc | .cld | .cli | .clv | .sec | .sed | .sei | .brk | .rti
  | .nop =>
    [.implicit]
  | .bit =>
    [.zeroPage, .absolute]
  | .cpx | .cpy =>
    [.immediate, .zeroPage, .absolute]
  | .inc | .dec =>
    [.zeroPage, .zeroPageX, .absolute, .absoluteX]
  | .asl | .lsr | .rol | .ror =>
    [.accumulator, .zeroPage, .zeroPageX, .absolute, .absoluteX]
  | .jmp =>
    [.absolute, .indirect]
  | .jsr =>
    [.absolute]
  | .bcc | .bcs | .beq | .bne | .bmi | .bpl | .bvc | .bvs =>
    [.relative]

/-- An instruction is well formed when its mnemonic has a form in its addressing mode. -/
def Instr.wellFormed (i : Instr) : Bool := i.mnemonic.modes.contains i.mode

/-- The mnemonics whose crossing forms pay the crossing cycle (30_encoding.md R105). -/
def Mnemonic.readsMemory : Mnemonic → Bool
  | .lda | .ldx | .ldy | .eor | .and | .ora | .adc | .sbc | .cmp => true
  | _ => false

/-- The modes in which a page crossing is charged to a reading instruction (30_encoding.md R105). -/
def Mode.crosses : Mode → Bool
  | .absoluteX | .absoluteY | .indirectY => true
  | _ => false

/-- A table entry is well formed when its mnemonic has a form in its mode (R81), its length is one more than its mode's
operand bytes (R83), and it is marked `pen` exactly when R105 says so. -/
def OpEntry.wellFormed (e : OpEntry) : Bool :=
  e.mnem.modes.contains e.mode
    && e.len == 1 + e.mode.operandBytes
    && e.pen == (e.mnem.readsMemory && e.mode.crosses)

end Sys2Proof
end

