-- ==== Sys2Proof/Decode.lean ====
section
/-! DEFINITION. The opcode table (30_encoding.md R80, R81, R106, R107), the decoder (R82 to R86) and, after it, the encoder.
The opcode bytes, lengths and cycle counts are the spec's reference table, which the spec itself marks as general
knowledge (log 6, UNVERIFIED). -/

namespace Sys2Proof

/-- `lo(w) = w[7:0]` (00_scope.md R9). -/
def loByte (w : Addr) : Byte := w.extractLsb' 0 8

/-- `hi(w) = w[15:8]` (00_scope.md R9). -/
def hiByte (w : Addr) : Byte := w.extractLsb' 8 8

/-- `w16(lo, hi) = lo | (hi << 8)` (00_scope.md R9; little-endian: 20_memory.md R53). -/
def w16 (lo hi : Byte) : Addr := lo.setWidth 16 ||| (hi.setWidth 16 <<< 8)

/-- How the operand bytes of a format complete an opcode to an instruction (30_encoding.md R83: F1, F2, F3). -/
inductive OpForm
  | f1 (i : Instr)
  | f2 (mk : Byte → Instr)
  | f3 (mk : Addr → Instr)

/-- The instruction a form gives with the two bytes that follow the opcode byte; a shorter format ignores the rest. -/
def OpForm.build : OpForm → Byte → Byte → Instr
  | .f1 i, _, _    => i
  | .f2 mk, b1, _  => mk b1
  | .f3 mk, b1, b2 => mk (w16 b1 b2)

/-- One row of the opcode table: the opcode byte, its entry (R81), and the instruction it builds. -/
structure OpRow where
  opcode : Byte
  entry  : OpEntry
  form   : OpForm

/-- Row 0x of the opcode map (30_encoding.md R106), with the columns of R107. -/
def opRows0 : List OpRow := [
  ⟨0x00#8, ⟨.brk, .implicit, 1, 7, false⟩, .f1 .brk⟩,
  ⟨0x01#8, ⟨.ora, .indirectX, 2, 6, false⟩, .f2 .oraIndX⟩,
  ⟨0x05#8, ⟨.ora, .zeroPage, 2, 3, false⟩, .f2 .oraZp⟩,
  ⟨0x06#8, ⟨.asl, .zeroPage, 2, 5, false⟩, .f2 .aslZp⟩,
  ⟨0x08#8, ⟨.php, .implicit, 1, 3, false⟩, .f1 .php⟩,
  ⟨0x09#8, ⟨.ora, .immediate, 2, 2, false⟩, .f2 .oraImm⟩,
  ⟨0x0A#8, ⟨.asl, .accumulator, 1, 2, false⟩, .f1 .aslAcc⟩,
  ⟨0x0D#8, ⟨.ora, .absolute, 3, 4, false⟩, .f3 .oraAbs⟩,
  ⟨0x0E#8, ⟨.asl, .absolute, 3, 6, false⟩, .f3 .aslAbs⟩]

/-- Row 1x of the opcode map (30_encoding.md R106), with the columns of R107. -/
def opRows1 : List OpRow := [
  ⟨0x10#8, ⟨.bpl, .relative, 2, 2, false⟩, .f2 .bpl⟩,
  ⟨0x11#8, ⟨.ora, .indirectY, 2, 5, true⟩, .f2 .oraIndY⟩,
  ⟨0x15#8, ⟨.ora, .zeroPageX, 2, 4, false⟩, .f2 .oraZpX⟩,
  ⟨0x16#8, ⟨.asl, .zeroPageX, 2, 6, false⟩, .f2 .aslZpX⟩,
  ⟨0x18#8, ⟨.clc, .implicit, 1, 2, false⟩, .f1 .clc⟩,
  ⟨0x19#8, ⟨.ora, .absoluteY, 3, 4, true⟩, .f3 .oraAbsY⟩,
  ⟨0x1D#8, ⟨.ora, .absoluteX, 3, 4, true⟩, .f3 .oraAbsX⟩,
  ⟨0x1E#8, ⟨.asl, .absoluteX, 3, 7, false⟩, .f3 .aslAbsX⟩]

/-- Row 2x of the opcode map (30_encoding.md R106), with the columns of R107. -/
def opRows2 : List OpRow := [
  ⟨0x20#8, ⟨.jsr, .absolute, 3, 6, false⟩, .f3 .jsrAbs⟩,
  ⟨0x21#8, ⟨.and, .indirectX, 2, 6, false⟩, .f2 .andIndX⟩,
  ⟨0x24#8, ⟨.bit, .zeroPage, 2, 3, false⟩, .f2 .bitZp⟩,
  ⟨0x25#8, ⟨.and, .zeroPage, 2, 3, false⟩, .f2 .andZp⟩,
  ⟨0x26#8, ⟨.rol, .zeroPage, 2, 5, false⟩, .f2 .rolZp⟩,
  ⟨0x28#8, ⟨.plp, .implicit, 1, 4, false⟩, .f1 .plp⟩,
  ⟨0x29#8, ⟨.and, .immediate, 2, 2, false⟩, .f2 .andImm⟩,
  ⟨0x2A#8, ⟨.rol, .accumulator, 1, 2, false⟩, .f1 .rolAcc⟩,
  ⟨0x2C#8, ⟨.bit, .absolute, 3, 4, false⟩, .f3 .bitAbs⟩,
  ⟨0x2D#8, ⟨.and, .absolute, 3, 4, false⟩, .f3 .andAbs⟩,
  ⟨0x2E#8, ⟨.rol, .absolute, 3, 6, false⟩, .f3 .rolAbs⟩]

/-- Row 3x of the opcode map (30_encoding.md R106), with the columns of R107. -/
def opRows3 : List OpRow := [
  ⟨0x30#8, ⟨.bmi, .relative, 2, 2, false⟩, .f2 .bmi⟩,
  ⟨0x31#8, ⟨.and, .indirectY, 2, 5, true⟩, .f2 .andIndY⟩,
  ⟨0x35#8, ⟨.and, .zeroPageX, 2, 4, false⟩, .f2 .andZpX⟩,
  ⟨0x36#8, ⟨.rol, .zeroPageX, 2, 6, false⟩, .f2 .rolZpX⟩,
  ⟨0x38#8, ⟨.sec, .implicit, 1, 2, false⟩, .f1 .sec⟩,
  ⟨0x39#8, ⟨.and, .absoluteY, 3, 4, true⟩, .f3 .andAbsY⟩,
  ⟨0x3D#8, ⟨.and, .absoluteX, 3, 4, true⟩, .f3 .andAbsX⟩,
  ⟨0x3E#8, ⟨.rol, .absoluteX, 3, 7, false⟩, .f3 .rolAbsX⟩]

/-- Row 4x of the opcode map (30_encoding.md R106), with the columns of R107. -/
def opRows4 : List OpRow := [
  ⟨0x40#8, ⟨.rti, .implicit, 1, 6, false⟩, .f1 .rti⟩,
  ⟨0x41#8, ⟨.eor, .indirectX, 2, 6, false⟩, .f2 .eorIndX⟩,
  ⟨0x45#8, ⟨.eor, .zeroPage, 2, 3, false⟩, .f2 .eorZp⟩,
  ⟨0x46#8, ⟨.lsr, .zeroPage, 2, 5, false⟩, .f2 .lsrZp⟩,
  ⟨0x48#8, ⟨.pha, .implicit, 1, 3, false⟩, .f1 .pha⟩,
  ⟨0x49#8, ⟨.eor, .immediate, 2, 2, false⟩, .f2 .eorImm⟩,
  ⟨0x4A#8, ⟨.lsr, .accumulator, 1, 2, false⟩, .f1 .lsrAcc⟩,
  ⟨0x4C#8, ⟨.jmp, .absolute, 3, 3, false⟩, .f3 .jmpAbs⟩,
  ⟨0x4D#8, ⟨.eor, .absolute, 3, 4, false⟩, .f3 .eorAbs⟩,
  ⟨0x4E#8, ⟨.lsr, .absolute, 3, 6, false⟩, .f3 .lsrAbs⟩]

/-- Row 5x of the opcode map (30_encoding.md R106), with the columns of R107. -/
def opRows5 : List OpRow := [
  ⟨0x50#8, ⟨.bvc, .relative, 2, 2, false⟩, .f2 .bvc⟩,
  ⟨0x51#8, ⟨.eor, .indirectY, 2, 5, true⟩, .f2 .eorIndY⟩,
  ⟨0x55#8, ⟨.eor, .zeroPageX, 2, 4, false⟩, .f2 .eorZpX⟩,
  ⟨0x56#8, ⟨.lsr, .zeroPageX, 2, 6, false⟩, .f2 .lsrZpX⟩,
  ⟨0x58#8, ⟨.cli, .implicit, 1, 2, false⟩, .f1 .cli⟩,
  ⟨0x59#8, ⟨.eor, .absoluteY, 3, 4, true⟩, .f3 .eorAbsY⟩,
  ⟨0x5D#8, ⟨.eor, .absoluteX, 3, 4, true⟩, .f3 .eorAbsX⟩,
  ⟨0x5E#8, ⟨.lsr, .absoluteX, 3, 7, false⟩, .f3 .lsrAbsX⟩]

/-- Row 6x of the opcode map (30_encoding.md R106), with the columns of R107. -/
def opRows6 : List OpRow := [
  ⟨0x60#8, ⟨.rts, .implicit, 1, 6, false⟩, .f1 .rts⟩,
  ⟨0x61#8, ⟨.adc, .indirectX, 2, 6, false⟩, .f2 .adcIndX⟩,
  ⟨0x65#8, ⟨.adc, .zeroPage, 2, 3, false⟩, .f2 .adcZp⟩,
  ⟨0x66#8, ⟨.ror, .zeroPage, 2, 5, false⟩, .f2 .rorZp⟩,
  ⟨0x68#8, ⟨.pla, .implicit, 1, 4, false⟩, .f1 .pla⟩,
  ⟨0x69#8, ⟨.adc, .immediate, 2, 2, false⟩, .f2 .adcImm⟩,
  ⟨0x6A#8, ⟨.ror, .accumulator, 1, 2, false⟩, .f1 .rorAcc⟩,
  ⟨0x6C#8, ⟨.jmp, .indirect, 3, 5, false⟩, .f3 .jmpInd⟩,
  ⟨0x6D#8, ⟨.adc, .absolute, 3, 4, false⟩, .f3 .adcAbs⟩,
  ⟨0x6E#8, ⟨.ror, .absolute, 3, 6, false⟩, .f3 .rorAbs⟩]

/-- Row 7x of the opcode map (30_encoding.md R106), with the columns of R107. -/
def opRows7 : List OpRow := [
  ⟨0x70#8, ⟨.bvs, .relative, 2, 2, false⟩, .f2 .bvs⟩,
  ⟨0x71#8, ⟨.adc, .indirectY, 2, 5, true⟩, .f2 .adcIndY⟩,
  ⟨0x75#8, ⟨.adc, .zeroPageX, 2, 4, false⟩, .f2 .adcZpX⟩,
  ⟨0x76#8, ⟨.ror, .zeroPageX, 2, 6, false⟩, .f2 .rorZpX⟩,
  ⟨0x78#8, ⟨.sei, .implicit, 1, 2, false⟩, .f1 .sei⟩,
  ⟨0x79#8, ⟨.adc, .absoluteY, 3, 4, true⟩, .f3 .adcAbsY⟩,
  ⟨0x7D#8, ⟨.adc, .absoluteX, 3, 4, true⟩, .f3 .adcAbsX⟩,
  ⟨0x7E#8, ⟨.ror, .absoluteX, 3, 7, false⟩, .f3 .rorAbsX⟩]

/-- Row 8x of the opcode map (30_encoding.md R106), with the columns of R107. -/
def opRows8 : List OpRow := [
  ⟨0x81#8, ⟨.sta, .indirectX, 2, 6, false⟩, .f2 .staIndX⟩,
  ⟨0x84#8, ⟨.sty, .zeroPage, 2, 3, false⟩, .f2 .styZp⟩,
  ⟨0x85#8, ⟨.sta, .zeroPage, 2, 3, false⟩, .f2 .staZp⟩,
  ⟨0x86#8, ⟨.stx, .zeroPage, 2, 3, false⟩, .f2 .stxZp⟩,
  ⟨0x88#8, ⟨.dey, .implicit, 1, 2, false⟩, .f1 .dey⟩,
  ⟨0x8A#8, ⟨.txa, .implicit, 1, 2, false⟩, .f1 .txa⟩,
  ⟨0x8C#8, ⟨.sty, .absolute, 3, 4, false⟩, .f3 .styAbs⟩,
  ⟨0x8D#8, ⟨.sta, .absolute, 3, 4, false⟩, .f3 .staAbs⟩,
  ⟨0x8E#8, ⟨.stx, .absolute, 3, 4, false⟩, .f3 .stxAbs⟩]

/-- Row 9x of the opcode map (30_encoding.md R106), with the columns of R107. -/
def opRows9 : List OpRow := [
  ⟨0x90#8, ⟨.bcc, .relative, 2, 2, false⟩, .f2 .bcc⟩,
  ⟨0x91#8, ⟨.sta, .indirectY, 2, 6, false⟩, .f2 .staIndY⟩,
  ⟨0x94#8, ⟨.sty, .zeroPageX, 2, 4, false⟩, .f2 .styZpX⟩,
  ⟨0x95#8, ⟨.sta, .zeroPageX, 2, 4, false⟩, .f2 .staZpX⟩,
  ⟨0x96#8, ⟨.stx, .zeroPageY, 2, 4, false⟩, .f2 .stxZpY⟩,
  ⟨0x98#8, ⟨.tya, .implicit, 1, 2, false⟩, .f1 .tya⟩,
  ⟨0x99#8, ⟨.sta, .absoluteY, 3, 5, false⟩, .f3 .staAbsY⟩,
  ⟨0x9A#8, ⟨.txs, .implicit, 1, 2, false⟩, .f1 .txs⟩,
  ⟨0x9D#8, ⟨.sta, .absoluteX, 3, 5, false⟩, .f3 .staAbsX⟩]

/-- Row Ax of the opcode map (30_encoding.md R106), with the columns of R107. -/
def opRowsA : List OpRow := [
  ⟨0xA0#8, ⟨.ldy, .immediate, 2, 2, false⟩, .f2 .ldyImm⟩,
  ⟨0xA1#8, ⟨.lda, .indirectX, 2, 6, false⟩, .f2 .ldaIndX⟩,
  ⟨0xA2#8, ⟨.ldx, .immediate, 2, 2, false⟩, .f2 .ldxImm⟩,
  ⟨0xA4#8, ⟨.ldy, .zeroPage, 2, 3, false⟩, .f2 .ldyZp⟩,
  ⟨0xA5#8, ⟨.lda, .zeroPage, 2, 3, false⟩, .f2 .ldaZp⟩,
  ⟨0xA6#8, ⟨.ldx, .zeroPage, 2, 3, false⟩, .f2 .ldxZp⟩,
  ⟨0xA8#8, ⟨.tay, .implicit, 1, 2, false⟩, .f1 .tay⟩,
  ⟨0xA9#8, ⟨.lda, .immediate, 2, 2, false⟩, .f2 .ldaImm⟩,
  ⟨0xAA#8, ⟨.tax, .implicit, 1, 2, false⟩, .f1 .tax⟩,
  ⟨0xAC#8, ⟨.ldy, .absolute, 3, 4, false⟩, .f3 .ldyAbs⟩,
  ⟨0xAD#8, ⟨.lda, .absolute, 3, 4, false⟩, .f3 .ldaAbs⟩,
  ⟨0xAE#8, ⟨.ldx, .absolute, 3, 4, false⟩, .f3 .ldxAbs⟩]

/-- Row Bx of the opcode map (30_encoding.md R106), with the columns of R107. -/
def opRowsB : List OpRow := [
  ⟨0xB0#8, ⟨.bcs, .relative, 2, 2, false⟩, .f2 .bcs⟩,
  ⟨0xB1#8, ⟨.lda, .indirectY, 2, 5, true⟩, .f2 .ldaIndY⟩,
  ⟨0xB4#8, ⟨.ldy, .zeroPageX, 2, 4, false⟩, .f2 .ldyZpX⟩,
  ⟨0xB5#8, ⟨.lda, .zeroPageX, 2, 4, false⟩, .f2 .ldaZpX⟩,
  ⟨0xB6#8, ⟨.ldx, .zeroPageY, 2, 4, false⟩, .f2 .ldxZpY⟩,
  ⟨0xB8#8, ⟨.clv, .implicit, 1, 2, false⟩, .f1 .clv⟩,
  ⟨0xB9#8, ⟨.lda, .absoluteY, 3, 4, true⟩, .f3 .ldaAbsY⟩,
  ⟨0xBA#8, ⟨.tsx, .implicit, 1, 2, false⟩, .f1 .tsx⟩,
  ⟨0xBC#8, ⟨.ldy, .absoluteX, 3, 4, true⟩, .f3 .ldyAbsX⟩,
  ⟨0xBD#8, ⟨.lda, .absoluteX, 3, 4, true⟩, .f3 .ldaAbsX⟩,
  ⟨0xBE#8, ⟨.ldx, .absoluteY, 3, 4, true⟩, .f3 .ldxAbsY⟩]

/-- Row Cx of the opcode map (30_encoding.md R106), with the columns of R107. -/
def opRowsC : List OpRow := [
  ⟨0xC0#8, ⟨.cpy, .immediate, 2, 2, false⟩, .f2 .cpyImm⟩,
  ⟨0xC1#8, ⟨.cmp, .indirectX, 2, 6, false⟩, .f2 .cmpIndX⟩,
  ⟨0xC4#8, ⟨.cpy, .zeroPage, 2, 3, false⟩, .f2 .cpyZp⟩,
  ⟨0xC5#8, ⟨.cmp, .zeroPage, 2, 3, false⟩, .f2 .cmpZp⟩,
  ⟨0xC6#8, ⟨.dec, .zeroPage, 2, 5, false⟩, .f2 .decZp⟩,
  ⟨0xC8#8, ⟨.iny, .implicit, 1, 2, false⟩, .f1 .iny⟩,
  ⟨0xC9#8, ⟨.cmp, .immediate, 2, 2, false⟩, .f2 .cmpImm⟩,
  ⟨0xCA#8, ⟨.dex, .implicit, 1, 2, false⟩, .f1 .dex⟩,
  ⟨0xCC#8, ⟨.cpy, .absolute, 3, 4, false⟩, .f3 .cpyAbs⟩,
  ⟨0xCD#8, ⟨.cmp, .absolute, 3, 4, false⟩, .f3 .cmpAbs⟩,
  ⟨0xCE#8, ⟨.dec, .absolute, 3, 6, false⟩, .f3 .decAbs⟩]

/-- Row Dx of the opcode map (30_encoding.md R106), with the columns of R107. -/
def opRowsD : List OpRow := [
  ⟨0xD0#8, ⟨.bne, .relative, 2, 2, false⟩, .f2 .bne⟩,
  ⟨0xD1#8, ⟨.cmp, .indirectY, 2, 5, true⟩, .f2 .cmpIndY⟩,
  ⟨0xD5#8, ⟨.cmp, .zeroPageX, 2, 4, false⟩, .f2 .cmpZpX⟩,
  ⟨0xD6#8, ⟨.dec, .zeroPageX, 2, 6, false⟩, .f2 .decZpX⟩,
  ⟨0xD8#8, ⟨.cld, .implicit, 1, 2, false⟩, .f1 .cld⟩,
  ⟨0xD9#8, ⟨.cmp, .absoluteY, 3, 4, true⟩, .f3 .cmpAbsY⟩,
  ⟨0xDD#8, ⟨.cmp, .absoluteX, 3, 4, true⟩, .f3 .cmpAbsX⟩,
  ⟨0xDE#8, ⟨.dec, .absoluteX, 3, 7, false⟩, .f3 .decAbsX⟩]

/-- Row Ex of the opcode map (30_encoding.md R106), with the columns of R107. -/
def opRowsE : List OpRow := [
  ⟨0xE0#8, ⟨.cpx, .immediate, 2, 2, false⟩, .f2 .cpxImm⟩,
  ⟨0xE1#8, ⟨.sbc, .indirectX, 2, 6, false⟩, .f2 .sbcIndX⟩,
  ⟨0xE4#8, ⟨.cpx, .zeroPage, 2, 3, false⟩, .f2 .cpxZp⟩,
  ⟨0xE5#8, ⟨.sbc, .zeroPage, 2, 3, false⟩, .f2 .sbcZp⟩,
  ⟨0xE6#8, ⟨.inc, .zeroPage, 2, 5, false⟩, .f2 .incZp⟩,
  ⟨0xE8#8, ⟨.inx, .implicit, 1, 2, false⟩, .f1 .inx⟩,
  ⟨0xE9#8, ⟨.sbc, .immediate, 2, 2, false⟩, .f2 .sbcImm⟩,
  ⟨0xEA#8, ⟨.nop, .implicit, 1, 2, false⟩, .f1 .nop⟩,
  ⟨0xEC#8, ⟨.cpx, .absolute, 3, 4, false⟩, .f3 .cpxAbs⟩,
  ⟨0xED#8, ⟨.sbc, .absolute, 3, 4, false⟩, .f3 .sbcAbs⟩,
  ⟨0xEE#8, ⟨.inc, .absolute, 3, 6, false⟩, .f3 .incAbs⟩]

/-- Row Fx of the opcode map (30_encoding.md R106), with the columns of R107. -/
def opRowsF : List OpRow := [
  ⟨0xF0#8, ⟨.beq, .relative, 2, 2, false⟩, .f2 .beq⟩,
  ⟨0xF1#8, ⟨.sbc, .indirectY, 2, 5, true⟩, .f2 .sbcIndY⟩,
  ⟨0xF5#8, ⟨.sbc, .zeroPageX, 2, 4, false⟩, .f2 .sbcZpX⟩,
  ⟨0xF6#8, ⟨.inc, .zeroPageX, 2, 6, false⟩, .f2 .incZpX⟩,
  ⟨0xF8#8, ⟨.sed, .implicit, 1, 2, false⟩, .f1 .sed⟩,
  ⟨0xF9#8, ⟨.sbc, .absoluteY, 3, 4, true⟩, .f3 .sbcAbsY⟩,
  ⟨0xFD#8, ⟨.sbc, .absoluteX, 3, 4, true⟩, .f3 .sbcAbsX⟩,
  ⟨0xFE#8, ⟨.inc, .absoluteX, 3, 7, false⟩, .f3 .incAbsX⟩]

/-- The rows of one high nibble. -/
def opRowsOf (hi : Nat) : List OpRow :=
  match hi with
  | 0 => opRows0
  | 1 => opRows1
  | 2 => opRows2
  | 3 => opRows3
  | 4 => opRows4
  | 5 => opRows5
  | 6 => opRows6
  | 7 => opRows7
  | 8 => opRows8
  | 9 => opRows9
  | 10 => opRowsA
  | 11 => opRowsB
  | 12 => opRowsC
  | 13 => opRowsD
  | 14 => opRowsE
  | 15 => opRowsF
  | _ => []

/-- The row of an opcode byte, if it has one (30_encoding.md R82: `lookup(byte) -> OpCode or Unknown`). -/
def opRow (b : Byte) : Option OpRow := (opRowsOf (b.toNat / 16)).find? (fun r => r.opcode == b)

/-- `OPTAB[b]` (30_encoding.md R81): the entry of an opcode byte, or absent. -/
def opTab (b : Byte) : Option OpEntry := (opRow b).map OpRow.entry

/-- Decode an opcode byte with the two bytes after it; none for an absent opcode byte (30_encoding.md R86, R109). -/
def decode3 (op b1 b2 : Byte) : Option Instr := (opRow op).map (fun r => r.form.build b1 b2)

/-- Why bytes are not an instruction. -/
inductive DecodeError
  /-- the opcode byte has no entry (30_encoding.md R82, R109) -/
  | unsupportedOpcode (opcode : Byte)
  /-- the list ends before the instruction does; memory never ends, so a step never meets this -/
  | truncated
  deriving DecidableEq, Repr

/-- Decode the instruction a list of bytes begins with, and the rest of the list (30_encoding.md R83: the opcode byte alone
fixes the length). Total, rejecting by name. -/
def decode : List Byte → Except DecodeError (Instr × List Byte)
  | [] => .error .truncated
  | op :: rest =>
    match opRow op with
    | none => .error (.unsupportedOpcode op)
    | some r =>
      match r.form, rest with
      | .f1 i, bs              => .ok (i, bs)
      | .f2 mk, b1 :: bs       => .ok (mk b1, bs)
      | .f3 mk, b1 :: b2 :: bs => .ok (mk (w16 b1 b2), bs)
      | _, _                   => .error .truncated

/-- Bytes are exactly one instruction: the opcode byte has an entry and there are as many bytes as its length says. -/
def wellFormedBytes (bs : List Byte) : Bool :=
  match bs with
  | [] => false
  | op :: _ => (opTab op).any (fun e => e.len == bs.length)

/-! ## The encoder -/

/-- The opcode byte of an instruction (30_encoding.md R107). -/
def Instr.opcode : Instr → Byte
  | .ldaImm _ => 0xA9#8
  | .ldaZp _ => 0xA5#8
  | .ldaZpX _ => 0xB5#8
  | .ldaAbs _ => 0xAD#8
  | .ldaAbsX _ => 0xBD#8
  | .ldaAbsY _ => 0xB9#8
  | .ldaIndX _ => 0xA1#8
  | .ldaIndY _ => 0xB1#8
  | .ldxImm _ => 0xA2#8
  | .ldxZp _ => 0xA6#8
  | .ldxZpY _ => 0xB6#8
  | .ldxAbs _ => 0xAE#8
  | .ldxAbsY _ => 0xBE#8
  | .ldyImm _ => 0xA0#8
  | .ldyZp _ => 0xA4#8
  | .ldyZpX _ => 0xB4#8
  | .ldyAbs _ => 0xAC#8
  | .ldyAbsX _ => 0xBC#8
  | .staZp _ => 0x85#8
  | .staZpX _ => 0x95#8
  | .staAbs _ => 0x8D#8
  | .staAbsX _ => 0x9D#8
  | .staAbsY _ => 0x99#8
  | .staIndX _ => 0x81#8
  | .staIndY _ => 0x91#8
  | .stxZp _ => 0x86#8
  | .stxZpY _ => 0x96#8
  | .stxAbs _ => 0x8E#8
  | .styZp _ => 0x84#8
  | .styZpX _ => 0x94#8
  | .styAbs _ => 0x8C#8
  | .tax => 0xAA#8
  | .tay => 0xA8#8
  | .txa => 0x8A#8
  | .tya => 0x98#8
  | .tsx => 0xBA#8
  | .txs => 0x9A#8
  | .pha => 0x48#8
  | .php => 0x08#8
  | .pla => 0x68#8
  | .plp => 0x28#8
  | .andImm _ => 0x29#8
  | .andZp _ => 0x25#8
  | .andZpX _ => 0x35#8
  | .andAbs _ => 0x2D#8
  | .andAbsX _ => 0x3D#8
  | .andAbsY _ => 0x39#8
  | .andIndX _ => 0x21#8
  | .andIndY _ => 0x31#8
  | .eorImm _ => 0x49#8
  | .eorZp _ => 0x45#8
  | .eorZpX _ => 0x55#8
  | .eorAbs _ => 0x4D#8
  | .eorAbsX _ => 0x5D#8
  | .eorAbsY _ => 0x59#8
  | .eorIndX _ => 0x41#8
  | .eorIndY _ => 0x51#8
  | .oraImm _ => 0x09#8
  | .oraZp _ => 0x05#8
  | .oraZpX _ => 0x15#8
  | .oraAbs _ => 0x0D#8
  | .oraAbsX _ => 0x1D#8
  | .oraAbsY _ => 0x19#8
  | .oraIndX _ => 0x01#8
  | .oraIndY _ => 0x11#8
  | .bitZp _ => 0x24#8
  | .bitAbs _ => 0x2C#8
  | .adcImm _ => 0x69#8
  | .adcZp _ => 0x65#8
  | .adcZpX _ => 0x75#8
  | .adcAbs _ => 0x6D#8
  | .adcAbsX _ => 0x7D#8
  | .adcAbsY _ => 0x79#8
  | .adcIndX _ => 0x61#8
  | .adcIndY _ => 0x71#8
  | .sbcImm _ => 0xE9#8
  | .sbcZp _ => 0xE5#8
  | .sbcZpX _ => 0xF5#8
  | .sbcAbs _ => 0xED#8
  | .sbcAbsX _ => 0xFD#8
  | .sbcAbsY _ => 0xF9#8
  | .sbcIndX _ => 0xE1#8
  | .sbcIndY _ => 0xF1#8
  | .cmpImm _ => 0xC9#8
  | .cmpZp _ => 0xC5#8
  | .cmpZpX _ => 0xD5#8
  | .cmpAbs _ => 0xCD#8
  | .cmpAbsX _ => 0xDD#8
  | .cmpAbsY _ => 0xD9#8
  | .cmpIndX _ => 0xC1#8
  | .cmpIndY _ => 0xD1#8
  | .cpxImm _ => 0xE0#8
  | .cpxZp _ => 0xE4#8
  | .cpxAbs _ => 0xEC#8
  | .cpyImm _ => 0xC0#8
  | .cpyZp _ => 0xC4#8
  | .cpyAbs _ => 0xCC#8
  | .incZp _ => 0xE6#8
  | .incZpX _ => 0xF6#8
  | .incAbs _ => 0xEE#8
  | .incAbsX _ => 0xFE#8
  | .decZp _ => 0xC6#8
  | .decZpX _ => 0xD6#8
  | .decAbs _ => 0xCE#8
  | .decAbsX _ => 0xDE#8
  | .inx => 0xE8#8
  | .iny => 0xC8#8
  | .dex => 0xCA#8
  | .dey => 0x88#8
  | .aslAcc => 0x0A#8
  | .aslZp _ => 0x06#8
  | .aslZpX _ => 0x16#8
  | .aslAbs _ => 0x0E#8
  | .aslAbsX _ => 0x1E#8
  | .lsrAcc => 0x4A#8
  | .lsrZp _ => 0x46#8
  | .lsrZpX _ => 0x56#8
  | .lsrAbs _ => 0x4E#8
  | .lsrAbsX _ => 0x5E#8
  | .rolAcc => 0x2A#8
  | .rolZp _ => 0x26#8
  | .rolZpX _ => 0x36#8
  | .rolAbs _ => 0x2E#8
  | .rolAbsX _ => 0x3E#8
  | .rorAcc => 0x6A#8
  | .rorZp _ => 0x66#8
  | .rorZpX _ => 0x76#8
  | .rorAbs _ => 0x6E#8
  | .rorAbsX _ => 0x7E#8
  | .jmpAbs _ => 0x4C#8
  | .jmpInd _ => 0x6C#8
  | .jsrAbs _ => 0x20#8
  | .rts => 0x60#8
  | .bcc _ => 0x90#8
  | .bcs _ => 0xB0#8
  | .beq _ => 0xF0#8
  | .bne _ => 0xD0#8
  | .bmi _ => 0x30#8
  | .bpl _ => 0x10#8
  | .bvc _ => 0x50#8
  | .bvs _ => 0x70#8
  | .clc => 0x18#8
  | .cld => 0xD8#8
  | .cli => 0x58#8
  | .clv => 0xB8#8
  | .sec => 0x38#8
  | .sed => 0xF8#8
  | .sei => 0x78#8
  | .brk => 0x00#8
  | .rti => 0x40#8
  | .nop => 0xEA#8

/-- The operand bytes of an address form, in memory order (30_encoding.md R83; 20_memory.md R53). -/
def AddrForm.bytes : AddrForm → List Byte
  | .zeroPage b | .zeroPageX b | .zeroPageY b | .indirectX b | .indirectY b => [b]
  | .absolute a | .absoluteX a | .absoluteY a | .indirect a => [loByte a, hiByte a]

/-- The operand bytes of an operand (30_encoding.md R83). -/
def Operand.bytes : Operand → List Byte
  | .implicit | .accumulator => []
  | .immediate b | .relative b => [b]
  | .memory f => f.bytes

/-- The bytes of an instruction: its opcode byte and its operand bytes (30_encoding.md R83). -/
def encode (i : Instr) : List Byte := i.opcode :: i.operand.bytes

/-- The instruction the decoder reads from an instruction given as a number `w` of `nbits` bits, the first byte least
significant; the bits above `nbits` are zero. The interface's name for `decode3`. -/
def decodeTableWord (nbits w : Nat) : Option Instr :=
  let v := w % 2 ^ nbits
  decode3 (BitVec.ofNat 8 v) (BitVec.ofNat 8 (v / 256)) (BitVec.ofNat 8 (v / 65536))

end Sys2Proof
end

