-- ==== Sys2Proof/Machine/Flags.lean ====
section
/-! DEFINITION. The status register's bits and their accessors (10_state.md R24 to R26) and every flag computation and ALU
result of the spec (00_scope.md R11; 42_logic_arith.md; 43_incdec_shift.md), over plain bytes. -/

namespace Sys2Proof.Machine

/-- The seven named bits of P (10_state.md R24); bit 5 has no name. -/
inductive Flag
  | c | z | i | d | b | v | n
  deriving DecidableEq, Repr

/-- The bit number of a flag (10_state.md R24; 00_scope.md R11). -/
def Flag.bit : Flag → Nat
  | .c => 0
  | .z => 1
  | .i => 2
  | .d => 3
  | .b => 4
  | .v => 6
  | .n => 7

/-- The bit that is always 1 (10_state.md R25). -/
def unusedBit : Byte := 0x20#8

/-- `get_bit(P, k)` (10_state.md R26). -/
def getBit (p : Byte) (k : Nat) : Bool := p.getLsbD k

/-- `set_bit(P, k, b)` (10_state.md R26): writes bit k, leaves every other bit, and keeps bit 5 at 1 (R25). -/
def setBit (p : Byte) (k : Nat) (b : Bool) : Byte :=
  (if b then p ||| (1#8 <<< k) else p &&& ~~~(1#8 <<< k)) ||| unusedBit

/-- `get(flag)` of a status byte (10_state.md R26). -/
def getFlag (p : Byte) (f : Flag) : Bool := getBit p f.bit

/-- `set(flag, b)` of a status byte (10_state.md R26). -/
def setFlag (p : Byte) (f : Flag) (b : Bool) : Byte := setBit p f.bit b

/-- `setZN(v)` (00_scope.md R11): Z is `v == 0`, N is bit 7 of v. -/
def setZNBits (p : Byte) (v : Byte) : Byte := setFlag (setFlag p .z (v == 0x00#8)) .n (v.getLsbD 7)

/-- The status byte PHP and BRK push: bits 4 and 5 set (41_transfer_stack.md R149; 45_flags_system.md R228). -/
def pushedByInstruction (p : Byte) : Byte := p ||| 0x30#8

/-- The status byte an interrupt entry pushes: bit 4 clear, bit 5 set (60_exceptions.md R245). -/
def pushedByInterrupt (p : Byte) : Byte := (p &&& 0xEF#8) ||| 0x20#8

/-- The status byte that PLP and RTI store: the pulled byte with bit 5 forced to 1, bit 4 copied (41_transfer_stack.md R151;
45_flags_system.md R229; log 12). -/
def pulledStatus (v : Byte) : Byte := v ||| unusedBit

/-! ## Binary addition with carry (42_logic_arith.md R165, R166; decimal mode has no effect, R167) -/

/-- `R = A + M' + C`, the exact sum (R165). -/
def sumWithCarry (a m : Byte) (c : Bool) : Nat := a.toNat + m.toNat + c.toNat

/-- `R[7:0]` (R165). -/
def sumByte (a m : Byte) (c : Bool) : Byte := BitVec.ofNat 8 (sumWithCarry a m c)

/-- `R > 0xFF` (R165). -/
def sumCarry (a m : Byte) (c : Bool) : Bool := decide (0xFF < sumWithCarry a m c)

/-- The overflow law (R166). -/
def sumOverflow (a m : Byte) (c : Bool) : Bool :=
  ((a ^^^ sumByte a m c) &&& (m ^^^ sumByte a m c) &&& 0x80#8) != 0x00#8

/-- `M ^ 0xFF`, what SBC adds (R165, R169). -/
def complement (m : Byte) : Byte := m ^^^ 0xFF#8

/-! ## Compare (42_logic_arith.md R170) -/

/-- `Reg >= M`, unsigned (R170). -/
def compareCarry (r m : Byte) : Bool := decide (m.toNat ≤ r.toNat)

/-- The status byte after a compare (R170 to R173). -/
def compareBits (p r m : Byte) : Byte :=
  setFlag (setFlag (setFlag p .c (compareCarry r m)) .z (r == m)) .n ((r - m).getLsbD 7)

/-- The status byte after BIT (42_logic_arith.md R164). -/
def bitTestBits (p a m : Byte) : Byte :=
  setFlag (setFlag (setFlag p .z ((a &&& m) == 0x00#8)) .v (m.getLsbD 6)) .n (m.getLsbD 7)

/-! ## Shifts and rotates by one bit: the result and the new carry from the input and the old carry (43_incdec_shift.md) -/

/-- ASL (R188). -/
def shiftLeft (o : Byte) (_c : Bool) : Byte × Bool := (o <<< 1, o.getLsbD 7)

/-- LSR (R189). -/
def shiftRight (o : Byte) (_c : Bool) : Byte × Bool := (o >>> 1, o.getLsbD 0)

/-- ROL (R190). -/
def rotateLeft (o : Byte) (c : Bool) : Byte × Bool := ((o <<< 1) ||| BitVec.ofNat 8 c.toNat, o.getLsbD 7)

/-- ROR (R191). -/
def rotateRight (o : Byte) (c : Bool) : Byte × Bool := ((o >>> 1) ||| (BitVec.ofNat 8 c.toNat <<< 7), o.getLsbD 0)

end Sys2Proof.Machine
end

