-- ==== Sys2Proof/Machine/State.lean ====
section
/-! DEFINITION. The state of the machine (10_state.md R20), the parameters of the model (00_scope.md R8), the memory in canonical
form, the two conditions a step can fail with (60_exceptions.md R240, R241), and the state after power-on and reset. -/

namespace Sys2Proof.Machine

/-- The bytes the bus keeps (20_memory.md R50, R52): address and byte pairs, addresses strictly rising, no byte listed that
equals what an unlisted address reads as. -/
abbrev Memory := List Host.Cell

/-- The cells are in canonical form and every address is at least `lo`. -/
def Memory.wfFrom (lo : Nat) : Memory → Bool
  | [] => true
  | (k, v) :: rest =>
    decide (lo ≤ k) && decide (k < Config.addressSpace) && v != Config.unlistedByte && Memory.wfFrom (k + 1) rest

/-- The canonical form of a memory. -/
def Memory.wf (m : Memory) : Bool := Memory.wfFrom 0 m

/-- One bus access: `read_byte` with the byte it returned, or `write_byte` (00_scope.md R5, R12). -/
inductive Access
  | read  (a : Addr) (v : Byte)
  | write (a : Addr) (v : Byte)
  deriving DecidableEq, Repr

/-! ## The parameters (00_scope.md R8)

They are data of the state that nothing the core does changes; a statement about every state is a statement about all of them. -/

/-- What stands behind a region of the address space instead of RAM (20_memory.md R52: "mirroring/mapping into cartridge ROM or
PPU registers is the Bus implementation's responsibility"; log 1). -/
inductive Backing
  /-- a write has no effect -/
  | rom
  /-- reads and writes go to the devices, whose state decides what a read answers and is changed by both (20_memory.md R62); the
  bytes the bus keeps stay -/
  | device
  /-- the byte `k` past the region's start is the byte `k mod size` past `base` -/
  | mirror (base : Addr) (size : Nat)
  deriving DecidableEq, Repr

/-- The addresses `first` to `last`, and what stands behind them. -/
structure Region where
  first : Addr
  last  : Addr
  kind  : Backing
  deriving DecidableEq, Repr

/-- The two counts of one opcode byte where they differ from the opcode table's (00_scope.md R8 (b)). -/
structure TimingRow where
  opcode : Byte
  base   : Nat
  pen    : Bool
  deriving DecidableEq, Repr

/-- One entry of the devices' behaviour: in device state `state`, a read at `addr` answers `byte`, or a write of `byte` at `addr` is
taken; the devices' state becomes `next`. -/
structure DeviceRow where
  state : Nat
  addr  : Addr
  byte  : Byte
  next  : Nat
  deriving DecidableEq, Repr

/-- The parameters `Bus`, `BaseCycles` and `PagePenalty` of 00_scope.md R8. Empty lists are the reference instance: flat RAM
(20_memory.md R52) and the counts of the opcode table. -/
structure Params where
  /-- `Bus`: the regions that are not plain RAM; the first that holds an address counts (log 1) -/
  busMap : List Region
  /-- `Bus`: how the devices answer reads, where it is given (log 16) -/
  deviceReads : List DeviceRow
  /-- `Bus`: how the devices take writes, where it is given (log 16) -/
  deviceWrites : List DeviceRow
  /-- `BaseCycles` and `PagePenalty`: the opcode bytes whose counts are not the opcode table's (log 6) -/
  timing : List TimingRow
  deriving DecidableEq, Repr

/-- The reference instance of the parameters (20_memory.md R52; 30_encoding.md R107). -/
def Params.reference : Params := ⟨[], [], [], []⟩

/-- The state (10_state.md R20), with the two inputs and outputs a caller sees at the core's interface, the parameters, and what
the bus keeps. -/
@[ext]
structure State where
  /-- the accumulator A (10_state.md R22) -/
  a : Byte
  /-- the index register X (10_state.md R23) -/
  x : Byte
  /-- the index register Y (10_state.md R23) -/
  y : Byte
  /-- the stack pointer SP, an offset into page 1 (10_state.md R34) -/
  sp : Byte
  /-- the program counter PC; it holds no value between power-on and the first reset (10_state.md R35, R40) -/
  pc : Option Addr
  /-- the status register P, bits NV1BDIZC (10_state.md R24) -/
  p : Byte
  /-- `nmi_pending`, the NMI latch (10_state.md R37) -/
  nmiPending : Bool
  /-- `irq_line`: an input, the level the surrounding system drives now (10_state.md R37; log 4) -/
  irqLine : Bool
  /-- the parameters of the model, which no step changes (00_scope.md R8; log 1, log 6) -/
  params : Params
  /-- the bytes the bus keeps, those of RAM and ROM (20_memory.md R50, R52; log 1) -/
  mem : Memory
  /-- the state of the devices on the bus, a number that stands for it; the model's own field (log 16) -/
  deviceState : Nat
  /-- output: the cycle count the last call returned, none where it returned none (70_reset_and_hazards.md R281; log 5) -/
  cycles : Option Nat
  /-- output: the bus accesses of the last call, oldest first (20_memory.md R60, R61; log 5) -/
  accesses : List Access
  deriving DecidableEq, Repr

/-! One update per field. -/

def State.withA (s : State) (v : Byte) : State := { s with a := v }
def State.withX (s : State) (v : Byte) : State := { s with x := v }
def State.withY (s : State) (v : Byte) : State := { s with y := v }
def State.withSp (s : State) (v : Byte) : State := { s with sp := v }
def State.withPc (s : State) (v : Option Addr) : State := { s with pc := v }
def State.withP (s : State) (v : Byte) : State := { s with p := v }
def State.withNmiPending (s : State) (v : Bool) : State := { s with nmiPending := v }
def State.withIrqLine (s : State) (v : Bool) : State := { s with irqLine := v }
def State.withParams (s : State) (v : Params) : State := { s with params := v }
def State.withMem (s : State) (v : Memory) : State := { s with mem := v }
def State.withDeviceState (s : State) (v : Nat) : State := { s with deviceState := v }
def State.withCycles (s : State) (v : Option Nat) : State := { s with cycles := v }
def State.withAccesses (s : State) (v : List Access) : State := { s with accesses := v }

/-- Why a step fails. Both conditions are the spec's own (60_exceptions.md R242 says there is no other). -/
inductive Fault
  /-- PcUndefined (60_exceptions.md R241): raised by `step`, and by an instruction that reads PC when it is run by hand on a
  state whose PC has no value (log 11). Nothing has changed. Safe: the chip runs on where the model stops. -/
  | pcUndefined
  /-- UnsupportedOpcode (60_exceptions.md R240): raised by `step` when it fetches one of the 105 absent opcode bytes; it
  records the byte and the state the failed step leaves behind, which a caller can inspect. Safe: the chip goes on with
  an undocumented instruction, and nothing can be proved about one here. -/
  | unsupportedOpcode (opcode : Byte) (after : State)
  deriving DecidableEq, Repr

/-- Why the model gives an instruction no meaning. -/
inductive Refusal
  /-- The arm of an instruction that has no meaning yet; no arm of this model raises it. Safe: nothing can be proved of it. -/
  | notModelled (mnemonic : String)
  deriving DecidableEq, Repr

/-- The machine right after `power_on()` and then `reset()` (10_state.md R40, R41), with nothing placed in memory: the PC
is the word at the reset vector, and the last call made the two vector reads and returned no cycle count
(70_reset_and_hazards.md R271). `irq_line` is DESIGN CHOICE 0 (log 4), the memory DESIGN CHOICE empty (log 2), `deviceState` DESIGN
CHOICE 0 (log 16); the parameters are the spec's reference instance. -/
def State.reset : State where
  a := 0x00#8
  x := 0x00#8
  y := 0x00#8
  sp := 0xFA#8
  pc := some 0x0000#16
  p := 0x34#8
  nmiPending := false
  irqLine := false
  params := Params.reference
  mem := []
  deviceState := 0
  cycles := none
  accesses := [.read 0xFFFC#16 0x00#8, .read 0xFFFD#16 0x00#8]

end Sys2Proof.Machine
end

