-- ==== Sys2Proof/Machine/Ops.lean ====
section
/-! DEFINITION. The named operations over memory, registers, flags and stack, and the one way an exception is taken
(45_flags_system.md R228; 60_exceptions.md R245) with the return from it beside it (45_flags_system.md R229). -/

namespace Sys2Proof.Machine

/-- What a step or a meaning answers. -/
abbrev Result := Host.Outcome State Fault Refusal

/-! ## Memory -/

/-- The byte at an address (20_memory.md R52). -/
def Memory.read : Memory → Nat → Byte
  | [], _ => Config.unlistedByte
  | (k, v) :: rest, a => if k = a then v else Memory.read rest a

/-- Store a byte at an address, keeping the canonical form (20_memory.md R52). -/
def Memory.write : Memory → Nat → Byte → Memory
  | [], a, b => if b = Config.unlistedByte then [] else [(a, b)]
  | (k, v) :: rest, a, b =>
    if a < k then (if b = Config.unlistedByte then (k, v) :: rest else (a, b) :: (k, v) :: rest)
    else if a = k then (if b = Config.unlistedByte then rest else (a, b) :: rest)
    else (k, v) :: Memory.write rest a b

/-! ## The bus as its parameters describe it (00_scope.md R5, R8; 20_memory.md R52, R62)

With no region the bus is flat RAM: 65 536 bytes, each its own cell (R52). -/

/-- The region holds the address. -/
def Region.holds (r : Region) (a : Addr) : Bool := decide (r.first.toNat ≤ a.toNat) && decide (a.toNat ≤ r.last.toNat)

/-- What stands behind an address; none for plain RAM. -/
def Params.backing (p : Params) (a : Addr) : Option Backing := (p.busMap.find? (·.holds a)).map Region.kind

/-- The cell an address names: the address itself, or the one a mirror gives, followed once. -/
def Params.cell (p : Params) (a : Addr) : Addr :=
  match p.busMap.find? (·.holds a) with
  | some ⟨first, _, .mirror base size⟩ => base + BitVec.ofNat 16 ((a.toNat - first.toNat) % size)
  | _ => a

/-- A read at the address is answered by a device. -/
def Params.isDevice (p : Params) (a : Addr) : Bool := p.backing (p.cell a) == some .device

/-- A write at the address stores its byte: its cell is neither ROM nor a device. -/
def Params.isRam (p : Params) (a : Addr) : Bool := p.backing (p.cell a) != some .rom && !p.isDevice a

/-- A device read in device state `d`: the byte answered and the devices' state after it, as a row gives it or else as a free
value (log 16). -/
def Params.deviceRead (p : Params) (d : Nat) (a : Addr) : Byte × Nat :=
  match p.deviceReads.find? (fun r => r.state == d && r.addr == a) with
  | some r => (r.byte, r.next)
  | none   => Config.deviceRead d a

/-- A device write in device state `d`: the devices' state after it, as a row gives it or else as a free value (log 16). -/
def Params.deviceWrite (p : Params) (d : Nat) (a : Addr) (v : Byte) : Nat :=
  match p.deviceWrites.find? (fun r => r.state == d && r.addr == a && r.byte == v) with
  | some r => r.next
  | none   => Config.deviceWrite d a v

/-- `read_byte`: the byte returned, with memory `m` and devices in state `d`. -/
def Params.readByte (p : Params) (m : Memory) (d : Nat) (a : Addr) : Byte :=
  if p.isDevice a then (p.deviceRead d (p.cell a)).1 else m.read (p.cell a).toNat

/-- The state of the devices after a read at `a`. -/
def Params.devicesAfterRead (p : Params) (d : Nat) (a : Addr) : Nat :=
  if p.isDevice a then (p.deviceRead d (p.cell a)).2 else d

/-- `write_byte`: the memory afterwards. -/
def Params.writeByte (p : Params) (m : Memory) (a : Addr) (v : Byte) : Memory :=
  if p.isRam a then m.write (p.cell a).toNat v else m

/-- The state of the devices after a write at `a`. -/
def Params.devicesAfterWrite (p : Params) (d : Nat) (a : Addr) (v : Byte) : Nat :=
  if p.isDevice a then p.deviceWrite d (p.cell a) v else d

/-- A memory bus as its user sees it (00_scope.md R5, R8 (a)): a pair of functions over its own state. -/
structure Bus (σ : Type) where
  read  : σ → Addr → Byte × σ
  write : σ → Addr → Byte → σ

/-- The `Bus` the parameters describe; its state is the bytes it keeps and the state of its devices. -/
def Params.bus (p : Params) : Bus (Memory × Nat) where
  read b a    := (p.readByte b.1 b.2 a, b.1, p.devicesAfterRead b.2 a)
  write b a v := (p.writeByte b.1 a v, p.devicesAfterWrite b.2 a v)

/-! ## The bus accesses of the core (00_scope.md R12; 20_memory.md R60, R61) -/

/-- What the bus holds now. -/
def State.busState (s : State) : Memory × Nat := (s.mem, s.deviceState)

/-- The bus holds something else now. -/
def State.withBusState (s : State) (b : Memory × Nat) : State := (s.withMem b.1).withDeviceState b.2

/-- The byte a read at `a` would return now. It is no bus access. -/
def State.peek (s : State) (a : Addr) : Byte := s.params.readByte s.mem s.deviceState a

/-- Note one bus access, after those already made. -/
def State.record (s : State) (x : Access) : State := s.withAccesses (s.accesses ++ [x])

/-- `MemRead(a, 1)`: one `read_byte` (R12), by the `read` of `Params.bus`. -/
def State.busRead (s : State) (a : Addr) : Byte × State :=
  (s.peek a, (s.record (.read a (s.peek a))).withDeviceState (s.params.devicesAfterRead s.deviceState a))

/-- `MemWrite(a, 1, v)`: one `write_byte` (R12), by the `write` of `Params.bus`. -/
def State.busWrite (s : State) (a : Addr) (v : Byte) : State :=
  ((s.record (.write a v)).withMem (s.params.writeByte s.mem a v)).withDeviceState (s.params.devicesAfterWrite s.deviceState a v)

/-- Two byte reads, the low byte first, as a 16-bit value (20_memory.md R53, R54). -/
def State.busReadPair (s : State) (aLo aHi : Addr) : Addr × State :=
  let l := s.busRead aLo
  let h := l.2.busRead aHi
  (w16 l.1 h.1, h.2)

/-- `MemRead(a, 2)`: reads at a, then at a+1 modulo 65 536 (00_scope.md R12; 20_memory.md R54 (a)). -/
def State.busRead16 (s : State) (a : Addr) : Addr × State := s.busReadPair a (a + 1#16)

/-- `zext_16(b)` (00_scope.md R10). -/
def zext16 (b : Byte) : Addr := b.setWidth 16

/-- `sext_16(b)` (00_scope.md R10). -/
def sext16 (b : Byte) : Addr := b.signExtend 16

/-- `ZpRead16(z)`: a pointer from page 0, its high byte at z+1 modulo 256 (00_scope.md R12; 20_memory.md R54 (b)). -/
def State.zpRead16 (s : State) (z : Byte) : Addr × State := s.busReadPair (zext16 z) (zext16 (z + 1#8))

/-! ## Registers and flags -/

/-- The three data registers (10_state.md R22, R23). -/
inductive Reg
  | a | x | y
  deriving DecidableEq, Repr

/-- Read a data register. -/
def State.reg (s : State) : Reg → Byte
  | .a => s.a
  | .x => s.x
  | .y => s.y

/-- Write a data register. -/
def State.setReg (s : State) (r : Reg) (v : Byte) : State :=
  match r with
  | .a => s.withA v
  | .x => s.withX v
  | .y => s.withY v

/-- A flag of P (10_state.md R26). -/
def State.flag (s : State) (f : Flag) : Bool := getFlag s.p f

/-- Write one flag of P (10_state.md R26). -/
def State.setFlag (s : State) (f : Flag) (b : Bool) : State := s.withP (Machine.setFlag s.p f b)

/-- `setZN(v)` (00_scope.md R11). -/
def State.setZN (s : State) (v : Byte) : State := s.withP (setZNBits s.p v)

/-- `R <- v; setZN(v)`: how every instruction with a register result ends. -/
def State.result (s : State) (r : Reg) (v : Byte) : State := (s.setReg r v).setZN v

/-! ## The stack (20_memory.md R56 to R59) -/

/-- `0x0100 | SP` (10_state.md R34). -/
def stackAddr (sp : Byte) : Addr := 0x0100#16 ||| zext16 sp

/-- `Push(v)` (20_memory.md R57): write, then decrement modulo 256. -/
def State.push (s : State) (v : Byte) : State := (s.busWrite (stackAddr s.sp) v).withSp (s.sp - 1#8)

/-- `Pull()` (20_memory.md R58): increment modulo 256, then read. -/
def State.pull (s : State) : Byte × State := (s.withSp (s.sp + 1#8)).busRead (stackAddr (s.sp + 1#8))

/-- Push a return address, the high byte first (44_control.md R201; 45_flags_system.md R228; 60_exceptions.md R245). -/
def State.pushAddr (s : State) (a : Addr) : State := (s.push (hiByte a)).push (loByte a)

/-- Pull an address, the low byte first (44_control.md R202; 45_flags_system.md R229). -/
def State.pullAddr (s : State) : Addr × State :=
  let l := s.pull
  let h := l.2.pull
  (w16 l.1 h.1, h.2)

/-! ## Exceptions -/

/-- The NMI vector (20_memory.md R55; 60_exceptions.md R245). -/
def nmiVector : Addr := 0xFFFA#16

/-- The reset vector (20_memory.md R55; 70_reset_and_hazards.md R271). -/
def resetVector : Addr := 0xFFFC#16

/-- The vector IRQ and BRK share (20_memory.md R55; 60_exceptions.md R246). -/
def irqBrkVector : Addr := 0xFFFE#16

/-- Take an exception: push the return address (high byte first), push the given status byte, set I, and load PC from the
vector. BRK, NMI and IRQ differ only in the three arguments (45_flags_system.md R228; 60_exceptions.md R245, R246). -/
def State.takeException (s : State) (ret : Addr) (status : Byte) (vector : Addr) : State :=
  let masked := ((s.pushAddr ret).push status).setFlag .i true
  let target := masked.busRead16 vector
  target.2.withPc (some target.1)

/-- Return from an exception: pull P (bit 5 forced to 1, bit 4 copied), then PC, the low byte first, with no increment
(45_flags_system.md R229; 60_exceptions.md R247). -/
def State.returnFromException (s : State) : State :=
  let st := s.pull
  let target := (st.2.withP (pulledStatus st.1)).pullAddr
  target.2.withPc (some target.1)

/-- `EnterInterrupt(NMI)` with the latch cleared (60_exceptions.md R244, R245). -/
def State.enterNmi (s : State) (pc : Addr) : State :=
  (s.withNmiPending false).takeException pc (pushedByInterrupt s.p) nmiVector

/-- `EnterInterrupt(IRQ)` (60_exceptions.md R243, R245). -/
def State.enterIrq (s : State) (pc : Addr) : State := s.takeException pc (pushedByInterrupt s.p) irqBrkVector

/-- An IRQ is accepted at this boundary: the line is 1 and I is 0 (60_exceptions.md R243). -/
def State.irqAccepted (s : State) : Bool := s.irqLine && !s.flag .i

end Sys2Proof.Machine
end

