-- ==== Sys2Proof/Machine/Operands.lean ====
section
/-! DEFINITION. The addressing-mode resolver (30_encoding.md R90 to R103) and how an instruction uses its operand (R104).
The operand bytes stand in the instruction already, read by the fetch (Machine/Fetch.lean), and PC is past them. -/

namespace Sys2Proof.Machine

/-- What the resolver returns for a form that names a place: the effective address, whether forming it crossed a page, and
the state after the mode's own pointer reads (30_encoding.md R90). -/
structure Located where
  ea : Addr
  crossed : Bool
  st : State
  deriving DecidableEq, Repr

/-- `hi(a) != hi(b)`: the two addresses lie in different pages (30_encoding.md R98, R99, R102). -/
def pageDiffers (a b : Addr) : Bool := hiByte a != hiByte b

/-- An indexed absolute address, with 16-bit wraparound (30_encoding.md R98, R102). -/
def indexed (base : Addr) (ix : Byte) (s : State) : Located :=
  let ea := base + zext16 ix
  ⟨ea, pageDiffers base ea, s⟩

/-- Where the high byte of a JMP indirect target is read: the pointer with only its low byte incremented
(30_encoding.md R100). -/
def pageWrapNext (ptr : Addr) : Addr := (ptr &&& 0xFF00#16) ||| ((ptr + 1#16) &&& 0x00FF#16)

/-- `resolve(mode)` for the forms that name a place (30_encoding.md R94 to R98, R100 to R102). -/
def resolve (f : AddrForm) (s : State) : Located :=
  match f with
  | .zeroPage b  => ⟨zext16 b, false, s⟩
  | .zeroPageX b => ⟨zext16 (b + s.x), false, s⟩
  | .zeroPageY b => ⟨zext16 (b + s.y), false, s⟩
  | .absolute a  => ⟨a, false, s⟩
  | .absoluteX a => indexed a s.x s
  | .absoluteY a => indexed a s.y s
  | .indirect p  => let t := s.busReadPair p (pageWrapNext p); ⟨t.1, false, t.2⟩
  | .indirectX b => let t := s.zpRead16 (b + s.x); ⟨t.1, false, t.2⟩
  | .indirectY b => let t := s.zpRead16 b; indexed t.1 s.y t.2

/-- The target of a branch from the address after it (30_encoding.md R99). -/
def relativeTarget (pcNext : Addr) (off : Byte) : Addr := pcNext + sext16 off

/-- The operand of an instruction that reads a byte: `Value(v)` or `Address(ea)` (30_encoding.md R90, R104). -/
inductive Source
  | immediate (v : Byte)
  | memory (f : AddrForm)
  deriving DecidableEq, Repr

/-- `M`, read once (30_encoding.md R104): the immediate byte, or the byte at the effective address, with the state after
the pointer reads and that read. -/
def Source.read (src : Source) (s : State) : Byte × State :=
  match src with
  | .immediate v => (v, s)
  | .memory f    => let l := resolve f s; l.st.busRead l.ea

/-- An operand as the source of an instruction that reads a byte: an immediate byte or a place in memory. -/
def sourceOf : Operand → Option Source
  | .immediate v => some (.immediate v)
  | .memory f    => some (.memory f)
  | .implicit | .accumulator | .relative _ => none

/-- The place of a shift or rotate: A in Accumulator mode, a byte of memory otherwise (30_encoding.md R92, R104). -/
inductive Target
  | accumulator
  | memory (f : AddrForm)
  deriving DecidableEq, Repr

/-- An operand as the place of a read-modify-write instruction. -/
def targetOf : Operand → Option Target
  | .accumulator => some .accumulator
  | .memory f    => some (.memory f)
  | .implicit | .immediate _ | .relative _ => none

/-- Read the byte of a place and write back what `f` makes of it, once each, at one effective address
(30_encoding.md R104; 20_memory.md R61). The second component is what `f` gives beside the result. -/
def Target.modify {β : Type} (t : Target) (f : Byte → Byte × β) (s : State) : (Byte × β) × State :=
  match t with
  | .accumulator => let o := f s.a; (o, s.withA o.1)
  | .memory form =>
    let l := resolve form s
    let m := l.st.busRead l.ea
    let o := f m.1
    (o, m.2.busWrite l.ea o.1)

end Sys2Proof.Machine
end

