-- ==== Sys2Proof/Machine/Control.lean ====
section
/-! DEFINITION. Jumps, calls, returns and branches (44_control.md R200 to R213). One definition per instruction, over the shared operations. -/

namespace Sys2Proof.Machine

/-- Run with the value of PC; a PC without value is PcUndefined (60_exceptions.md R241; log 11). A step never gives such a
state to an instruction. -/
def withPcValue (s : State) (k : Addr → State) : Result :=
  match s.pc with
  | none    => .fault .pcUndefined
  | some pc => .next (k pc)

/-- `PC <- ea` (R200). -/
def jumpTo (f : AddrForm) (s : State) : State :=
  let l := resolve f s
  l.st.withPc (some l.ea)

/-- Push PC - 1, the high byte first, and go to the target (R201). -/
def callTo (target : Addr) (s : State) (pc : Addr) : State := (s.pushAddr (pc - 1#16)).withPc (some target)

/-- Pull an address, the low byte first, and go to the one after it (R202). -/
def returnFromCall (s : State) : State :=
  let t := s.pullAddr
  t.2.withPc (some (t.1 + 1#16))

/-- A branch: PC becomes the target where the condition holds, and nothing else changes (R203). -/
def branchIf (cond : Bool) (off : Byte) (s : State) (pc : Addr) : State :=
  if cond then s.withPc (some (relativeTarget pc off)) else s

/-- The condition of a branch on the status byte (R205 to R212); false for every other mnemonic. -/
def branchCondition (m : Mnemonic) (p : Byte) : Bool :=
  match m with
  | .bcc => !getFlag p .c
  | .bcs => getFlag p .c
  | .beq => getFlag p .z
  | .bne => !getFlag p .z
  | .bmi => getFlag p .n
  | .bpl => !getFlag p .n
  | .bvc => !getFlag p .v
  | .bvs => getFlag p .v
  | _ => false

/-- JMP addr, opcode 4C (R200). -/
def execJmpAbs (addr : Addr) (s : State) : Result := .next (jumpTo (.absolute addr) s)

/-- JMP (ptr), opcode 6C (R200). -/
def execJmpInd (ptr : Addr) (s : State) : Result := .next (jumpTo (.indirect ptr) s)

/-- JSR addr, opcode 20 (R201). -/
def execJsrAbs (addr : Addr) (s : State) : Result := withPcValue s (callTo addr s)

/-- RTS, opcode 60 (R202). -/
def execRts (s : State) : Result := .next (returnFromCall s)

/-- BCC off, opcode 90 (R205). -/
def execBcc (off : Byte) (s : State) : Result := withPcValue s (branchIf (branchCondition .bcc s.p) off s)

/-- BCS off, opcode B0 (R206). -/
def execBcs (off : Byte) (s : State) : Result := withPcValue s (branchIf (branchCondition .bcs s.p) off s)

/-- BEQ off, opcode F0 (R207). -/
def execBeq (off : Byte) (s : State) : Result := withPcValue s (branchIf (branchCondition .beq s.p) off s)

/-- BNE off, opcode D0 (R208). -/
def execBne (off : Byte) (s : State) : Result := withPcValue s (branchIf (branchCondition .bne s.p) off s)

/-- BMI off, opcode 30 (R209). -/
def execBmi (off : Byte) (s : State) : Result := withPcValue s (branchIf (branchCondition .bmi s.p) off s)

/-- BPL off, opcode 10 (R210). -/
def execBpl (off : Byte) (s : State) : Result := withPcValue s (branchIf (branchCondition .bpl s.p) off s)

/-- BVC off, opcode 50 (R211). -/
def execBvc (off : Byte) (s : State) : Result := withPcValue s (branchIf (branchCondition .bvc s.p) off s)

/-- BVS off, opcode 70 (R212). -/
def execBvs (off : Byte) (s : State) : Result := withPcValue s (branchIf (branchCondition .bvs s.p) off s)

end Sys2Proof.Machine
end

