-- ==== Sys2Proof/Machine/Cycles.lean ====
section
/-! DEFINITION. The cycle count `step()` returns (70_reset_and_hazards.md R281). It is an output: no state transition reads it
(R283). The counts are parameters (00_scope.md R8 (b)); their reference values are the opcode table's columns (log 6). -/

namespace Sys2Proof.Machine

/-- The counts the parameters give an opcode byte, if they differ from the opcode table's. -/
def Params.timingOf (p : Params) (op : Byte) : Option TimingRow := p.timing.find? (·.opcode == op)

/-- `BaseCycles` (00_scope.md R8 (b)): the parameter's count of an opcode byte, else the opcode table's; 0 for an absent byte,
which no step charges. -/
def baseCycles (p : Params) (op : Byte) : Nat :=
  ((p.timingOf op).map TimingRow.base).getD (((opTab op).map OpEntry.base).getD 0)

/-- `PagePenalty` (00_scope.md R8 (b); 30_encoding.md R105): the parameter's flag of an opcode byte, else the opcode table's. -/
def pagePenalty (p : Params) (op : Byte) : Bool :=
  ((p.timingOf op).map TimingRow.pen).getD (((opTab op).map OpEntry.pen).getD false)

/-- `crossed` of an operand (30_encoding.md R90), in the state the instruction is run on, where PC is past it. -/
def operandCrosses (o : Operand) (s : State) : Bool :=
  match o with
  | .implicit | .accumulator | .immediate _ => false
  | .relative off => s.pc.any (fun pc => pageDiffers pc (relativeTarget pc off))
  | .memory f => (resolve f s).crossed

/-- `extra` of an instruction: a taken branch costs 1, and 1 more across a page (44_control.md R203, R204). -/
def branchExtra (i : Instr) (s : State) : Nat :=
  if branchCondition i.mnemonic s.p then 1 + (operandCrosses i.operand s).toNat else 0

/-- The cycle count of one instruction, from the state it is run on (70_reset_and_hazards.md R281; 30_encoding.md R87). -/
def cycleCount (i : Instr) (s : State) : Nat :=
  baseCycles s.params i.opcode + (pagePenalty s.params i.opcode && operandCrosses i.operand s).toNat + branchExtra i s

/-- The cycle count of an interrupt entry (60_exceptions.md R245). -/
def interruptCycles : Nat := 7

/-- A step returns its cycle count; a failed step returns none (70_reset_and_hazards.md R281). -/
def charge (n : Nat) (r : Result) : Result :=
  match r with
  | .next s    => .next (s.withCycles (some n))
  | .fault f   => .fault f
  | .refused f => .refused f

end Sys2Proof.Machine
end

