-- ==== Sys2Proof/Machine/FlagsSystem.lean ====
section
/-! DEFINITION. Flag instructions, BRK, RTI and NOP (45_flags_system.md R220 to R230). One definition per instruction, over the shared operations. -/

namespace Sys2Proof.Machine

/-- BRK from the PC after its opcode byte: push BRK + 2 and P with bits 4 and 5 set, set I, go through 0xFFFE (R228). -/
def breakFrom (s : State) (pc : Addr) : State :=
  s.takeException (pc + 1#16) (pushedByInstruction s.p) irqBrkVector

/-- CLC, opcode 18 (R221). -/
def execClc (s : State) : Result := .next (s.setFlag .c false)

/-- CLD, opcode D8 (R222). -/
def execCld (s : State) : Result := .next (s.setFlag .d false)

/-- CLI, opcode 58 (R223). -/
def execCli (s : State) : Result := .next (s.setFlag .i false)

/-- CLV, opcode B8 (R224). -/
def execClv (s : State) : Result := .next (s.setFlag .v false)

/-- SEC, opcode 38 (R225). -/
def execSec (s : State) : Result := .next (s.setFlag .c true)

/-- SED, opcode F8 (R226). -/
def execSed (s : State) : Result := .next (s.setFlag .d true)

/-- SEI, opcode 78 (R227). -/
def execSei (s : State) : Result := .next (s.setFlag .i true)

/-- BRK, opcode 00 (R228). -/
def execBrk (s : State) : Result := withPcValue s (breakFrom s)

/-- RTI, opcode 40 (R229). -/
def execRti (s : State) : Result := .next (s.returnFromException)

/-- NOP, opcode EA (R230). -/
def execNop (s : State) : Result := .next s

end Sys2Proof.Machine
end

