-- ==== Sys2Proof/Machine/IncDecShift.lean ====
section
/-! DEFINITION. Increment, decrement, shifts and rotates (43_incdec_shift.md R180 to R191). One definition per instruction, over the shared operations. -/

namespace Sys2Proof.Machine

/-- Read the byte of a place, write back what `g` makes of it, and set Z and N from it (R180 to R182). -/
def stepMemory (g : Byte → Byte) (f : AddrForm) (s : State) : State :=
  let r := (Target.memory f).modify (fun o => (g o, ())) s
  r.2.setZN r.1.1

/-- `r <- r + 1` modulo 256 (R180). -/
def incByte (b : Byte) : Byte := b + 1#8

/-- `r <- r - 1` modulo 256 (R180). -/
def decByte (b : Byte) : Byte := b - 1#8

/-- Shift or rotate a place by one bit: the result goes back, C gets the bit shifted out, Z and N follow the result (R187).
`op` reads the old C before C is written. -/
def shiftPlace (op : Byte → Bool → Byte × Bool) (t : Target) (s : State) : State :=
  let r := t.modify (fun o => op o (s.flag .c)) s
  (r.2.setFlag .c r.1.2).setZN r.1.1

/-- INC b, opcode E6 (R181). -/
def execIncZp (b : Byte) (s : State) : Result := .next (stepMemory incByte (.zeroPage b) s)

/-- INC b,X, opcode F6 (R181). -/
def execIncZpX (b : Byte) (s : State) : Result := .next (stepMemory incByte (.zeroPageX b) s)

/-- INC addr, opcode EE (R181). -/
def execIncAbs (addr : Addr) (s : State) : Result := .next (stepMemory incByte (.absolute addr) s)

/-- INC addr,X, opcode FE (R181). -/
def execIncAbsX (addr : Addr) (s : State) : Result := .next (stepMemory incByte (.absoluteX addr) s)

/-- DEC b, opcode C6 (R182). -/
def execDecZp (b : Byte) (s : State) : Result := .next (stepMemory decByte (.zeroPage b) s)

/-- DEC b,X, opcode D6 (R182). -/
def execDecZpX (b : Byte) (s : State) : Result := .next (stepMemory decByte (.zeroPageX b) s)

/-- DEC addr, opcode CE (R182). -/
def execDecAbs (addr : Addr) (s : State) : Result := .next (stepMemory decByte (.absolute addr) s)

/-- DEC addr,X, opcode DE (R182). -/
def execDecAbsX (addr : Addr) (s : State) : Result := .next (stepMemory decByte (.absoluteX addr) s)

/-- INX, opcode E8 (R183). -/
def execInx (s : State) : Result := .next (s.result .x (incByte s.x))

/-- INY, opcode C8 (R184). -/
def execIny (s : State) : Result := .next (s.result .y (incByte s.y))

/-- DEX, opcode CA (R185). -/
def execDex (s : State) : Result := .next (s.result .x (decByte s.x))

/-- DEY, opcode 88 (R186). -/
def execDey (s : State) : Result := .next (s.result .y (decByte s.y))

/-- ASL A, opcode 0A (R188). -/
def execAslAcc (s : State) : Result := .next (shiftPlace shiftLeft .accumulator s)

/-- ASL b, opcode 06 (R188). -/
def execAslZp (b : Byte) (s : State) : Result := .next (shiftPlace shiftLeft (.memory (.zeroPage b)) s)

/-- ASL b,X, opcode 16 (R188). -/
def execAslZpX (b : Byte) (s : State) : Result := .next (shiftPlace shiftLeft (.memory (.zeroPageX b)) s)

/-- ASL addr, opcode 0E (R188). -/
def execAslAbs (addr : Addr) (s : State) : Result := .next (shiftPlace shiftLeft (.memory (.absolute addr)) s)

/-- ASL addr,X, opcode 1E (R188). -/
def execAslAbsX (addr : Addr) (s : State) : Result := .next (shiftPlace shiftLeft (.memory (.absoluteX addr)) s)

/-- LSR A, opcode 4A (R189). -/
def execLsrAcc (s : State) : Result := .next (shiftPlace shiftRight .accumulator s)

/-- LSR b, opcode 46 (R189). -/
def execLsrZp (b : Byte) (s : State) : Result := .next (shiftPlace shiftRight (.memory (.zeroPage b)) s)

/-- LSR b,X, opcode 56 (R189). -/
def execLsrZpX (b : Byte) (s : State) : Result := .next (shiftPlace shiftRight (.memory (.zeroPageX b)) s)

/-- LSR addr, opcode 4E (R189). -/
def execLsrAbs (addr : Addr) (s : State) : Result := .next (shiftPlace shiftRight (.memory (.absolute addr)) s)

/-- LSR addr,X, opcode 5E (R189). -/
def execLsrAbsX (addr : Addr) (s : State) : Result := .next (shiftPlace shiftRight (.memory (.absoluteX addr)) s)

/-- ROL A, opcode 2A (R190). -/
def execRolAcc (s : State) : Result := .next (shiftPlace rotateLeft .accumulator s)

/-- ROL b, opcode 26 (R190). -/
def execRolZp (b : Byte) (s : State) : Result := .next (shiftPlace rotateLeft (.memory (.zeroPage b)) s)

/-- ROL b,X, opcode 36 (R190). -/
def execRolZpX (b : Byte) (s : State) : Result := .next (shiftPlace rotateLeft (.memory (.zeroPageX b)) s)

/-- ROL addr, opcode 2E (R190). -/
def execRolAbs (addr : Addr) (s : State) : Result := .next (shiftPlace rotateLeft (.memory (.absolute addr)) s)

/-- ROL addr,X, opcode 3E (R190). -/
def execRolAbsX (addr : Addr) (s : State) : Result := .next (shiftPlace rotateLeft (.memory (.absoluteX addr)) s)

/-- ROR A, opcode 6A (R191). -/
def execRorAcc (s : State) : Result := .next (shiftPlace rotateRight .accumulator s)

/-- ROR b, opcode 66 (R191). -/
def execRorZp (b : Byte) (s : State) : Result := .next (shiftPlace rotateRight (.memory (.zeroPage b)) s)

/-- ROR b,X, opcode 76 (R191). -/
def execRorZpX (b : Byte) (s : State) : Result := .next (shiftPlace rotateRight (.memory (.zeroPageX b)) s)

/-- ROR addr, opcode 6E (R191). -/
def execRorAbs (addr : Addr) (s : State) : Result := .next (shiftPlace rotateRight (.memory (.absolute addr)) s)

/-- ROR addr,X, opcode 7E (R191). -/
def execRorAbsX (addr : Addr) (s : State) : Result := .next (shiftPlace rotateRight (.memory (.absoluteX addr)) s)

end Sys2Proof.Machine
end

