-- ==== Sys2Proof/Machine/LoadStore.lean ====
section
/-! DEFINITION. Load and store (40_load_store.md R130 to R136). One definition per instruction, over the shared operations. -/

namespace Sys2Proof.Machine

/-- `R <- M; setZN(R)` (R130 to R133). -/
def loadReg (r : Reg) (src : Source) (s : State) : State :=
  let m := src.read s
  m.2.result r m.1

/-- `MemWrite(ea, 1, R)`, without reading ea (R130, R134 to R136). -/
def storeReg (r : Reg) (f : AddrForm) (s : State) : State :=
  let l := resolve f s
  l.st.busWrite l.ea (s.reg r)

/-- LDA #v, opcode A9 (R131). -/
def execLdaImm (v : Byte) (s : State) : Result := .next (loadReg .a (.immediate v) s)

/-- LDA b, opcode A5 (R131). -/
def execLdaZp (b : Byte) (s : State) : Result := .next (loadReg .a (.memory (.zeroPage b)) s)

/-- LDA b,X, opcode B5 (R131). -/
def execLdaZpX (b : Byte) (s : State) : Result := .next (loadReg .a (.memory (.zeroPageX b)) s)

/-- LDA addr, opcode AD (R131). -/
def execLdaAbs (addr : Addr) (s : State) : Result := .next (loadReg .a (.memory (.absolute addr)) s)

/-- LDA addr,X, opcode BD (R131). -/
def execLdaAbsX (addr : Addr) (s : State) : Result := .next (loadReg .a (.memory (.absoluteX addr)) s)

/-- LDA addr,Y, opcode B9 (R131). -/
def execLdaAbsY (addr : Addr) (s : State) : Result := .next (loadReg .a (.memory (.absoluteY addr)) s)

/-- LDA (b,X), opcode A1 (R131). -/
def execLdaIndX (b : Byte) (s : State) : Result := .next (loadReg .a (.memory (.indirectX b)) s)

/-- LDA (b),Y, opcode B1 (R131). -/
def execLdaIndY (b : Byte) (s : State) : Result := .next (loadReg .a (.memory (.indirectY b)) s)

/-- LDX #v, opcode A2 (R132). -/
def execLdxImm (v : Byte) (s : State) : Result := .next (loadReg .x (.immediate v) s)

/-- LDX b, opcode A6 (R132). -/
def execLdxZp (b : Byte) (s : State) : Result := .next (loadReg .x (.memory (.zeroPage b)) s)

/-- LDX b,Y, opcode B6 (R132). -/
def execLdxZpY (b : Byte) (s : State) : Result := .next (loadReg .x (.memory (.zeroPageY b)) s)

/-- LDX addr, opcode AE (R132). -/
def execLdxAbs (addr : Addr) (s : State) : Result := .next (loadReg .x (.memory (.absolute addr)) s)

/-- LDX addr,Y, opcode BE (R132). -/
def execLdxAbsY (addr : Addr) (s : State) : Result := .next (loadReg .x (.memory (.absoluteY addr)) s)

/-- LDY #v, opcode A0 (R133). -/
def execLdyImm (v : Byte) (s : State) : Result := .next (loadReg .y (.immediate v) s)

/-- LDY b, opcode A4 (R133). -/
def execLdyZp (b : Byte) (s : State) : Result := .next (loadReg .y (.memory (.zeroPage b)) s)

/-- LDY b,X, opcode B4 (R133). -/
def execLdyZpX (b : Byte) (s : State) : Result := .next (loadReg .y (.memory (.zeroPageX b)) s)

/-- LDY addr, opcode AC (R133). -/
def execLdyAbs (addr : Addr) (s : State) : Result := .next (loadReg .y (.memory (.absolute addr)) s)

/-- LDY addr,X, opcode BC (R133). -/
def execLdyAbsX (addr : Addr) (s : State) : Result := .next (loadReg .y (.memory (.absoluteX addr)) s)

/-- STA b, opcode 85 (R134). -/
def execStaZp (b : Byte) (s : State) : Result := .next (storeReg .a (.zeroPage b) s)

/-- STA b,X, opcode 95 (R134). -/
def execStaZpX (b : Byte) (s : State) : Result := .next (storeReg .a (.zeroPageX b) s)

/-- STA addr, opcode 8D (R134). -/
def execStaAbs (addr : Addr) (s : State) : Result := .next (storeReg .a (.absolute addr) s)

/-- STA addr,X, opcode 9D (R134). -/
def execStaAbsX (addr : Addr) (s : State) : Result := .next (storeReg .a (.absoluteX addr) s)

/-- STA addr,Y, opcode 99 (R134). -/
def execStaAbsY (addr : Addr) (s : State) : Result := .next (storeReg .a (.absoluteY addr) s)

/-- STA (b,X), opcode 81 (R134). -/
def execStaIndX (b : Byte) (s : State) : Result := .next (storeReg .a (.indirectX b) s)

/-- STA (b),Y, opcode 91 (R134). -/
def execStaIndY (b : Byte) (s : State) : Result := .next (storeReg .a (.indirectY b) s)

/-- STX b, opcode 86 (R135). -/
def execStxZp (b : Byte) (s : State) : Result := .next (storeReg .x (.zeroPage b) s)

/-- STX b,Y, opcode 96 (R135). -/
def execStxZpY (b : Byte) (s : State) : Result := .next (storeReg .x (.zeroPageY b) s)

/-- STX addr, opcode 8E (R135). -/
def execStxAbs (addr : Addr) (s : State) : Result := .next (storeReg .x (.absolute addr) s)

/-- STY b, opcode 84 (R136). -/
def execStyZp (b : Byte) (s : State) : Result := .next (storeReg .y (.zeroPage b) s)

/-- STY b,X, opcode 94 (R136). -/
def execStyZpX (b : Byte) (s : State) : Result := .next (storeReg .y (.zeroPageX b) s)

/-- STY addr, opcode 8C (R136). -/
def execStyAbs (addr : Addr) (s : State) : Result := .next (storeReg .y (.absolute addr) s)

end Sys2Proof.Machine
end

