-- ==== Sys2Proof/Machine/LogicArith.lean ====
section
/-! DEFINITION. Logic, arithmetic and compares (42_logic_arith.md R160 to R173). One definition per instruction, over the shared operations. -/

namespace Sys2Proof.Machine

/-- `A <- A op M; setZN(A)` (R160 to R163). -/
def logicA (op : Byte → Byte → Byte) (src : Source) (s : State) : State :=
  let m := src.read s
  m.2.result .a (op s.a m.1)

/-- BIT (R164): Z from `A & M`, V and N from bits 6 and 7 of M. -/
def bitTest (f : AddrForm) (s : State) : State :=
  let m := (Source.memory f).read s
  m.2.withP (bitTestBits s.p s.a m.1)

/-- `A + M' + C` into A with C, V, Z and N, binary whatever D is (R165 to R167); `addend` gives M' from M. -/
def addToA (addend : Byte → Byte) (src : Source) (s : State) : State :=
  let m := src.read s
  let k := addend m.1
  let c := s.flag .c
  ((m.2.setFlag .c (sumCarry s.a k c)).setFlag .v (sumOverflow s.a k c)).result .a (sumByte s.a k c)

/-- Compare a register with M (R170 to R173). -/
def compareReg (r : Reg) (src : Source) (s : State) : State :=
  let m := src.read s
  m.2.withP (compareBits s.p (s.reg r) m.1)

/-- AND #v, opcode 29 (R161). -/
def execAndImm (v : Byte) (s : State) : Result := .next (logicA (· &&& ·) (.immediate v) s)

/-- AND b, opcode 25 (R161). -/
def execAndZp (b : Byte) (s : State) : Result := .next (logicA (· &&& ·) (.memory (.zeroPage b)) s)

/-- AND b,X, opcode 35 (R161). -/
def execAndZpX (b : Byte) (s : State) : Result := .next (logicA (· &&& ·) (.memory (.zeroPageX b)) s)

/-- AND addr, opcode 2D (R161). -/
def execAndAbs (addr : Addr) (s : State) : Result := .next (logicA (· &&& ·) (.memory (.absolute addr)) s)

/-- AND addr,X, opcode 3D (R161). -/
def execAndAbsX (addr : Addr) (s : State) : Result := .next (logicA (· &&& ·) (.memory (.absoluteX addr)) s)

/-- AND addr,Y, opcode 39 (R161). -/
def execAndAbsY (addr : Addr) (s : State) : Result := .next (logicA (· &&& ·) (.memory (.absoluteY addr)) s)

/-- AND (b,X), opcode 21 (R161). -/
def execAndIndX (b : Byte) (s : State) : Result := .next (logicA (· &&& ·) (.memory (.indirectX b)) s)

/-- AND (b),Y, opcode 31 (R161). -/
def execAndIndY (b : Byte) (s : State) : Result := .next (logicA (· &&& ·) (.memory (.indirectY b)) s)

/-- EOR #v, opcode 49 (R162). -/
def execEorImm (v : Byte) (s : State) : Result := .next (logicA (· ^^^ ·) (.immediate v) s)

/-- EOR b, opcode 45 (R162). -/
def execEorZp (b : Byte) (s : State) : Result := .next (logicA (· ^^^ ·) (.memory (.zeroPage b)) s)

/-- EOR b,X, opcode 55 (R162). -/
def execEorZpX (b : Byte) (s : State) : Result := .next (logicA (· ^^^ ·) (.memory (.zeroPageX b)) s)

/-- EOR addr, opcode 4D (R162). -/
def execEorAbs (addr : Addr) (s : State) : Result := .next (logicA (· ^^^ ·) (.memory (.absolute addr)) s)

/-- EOR addr,X, opcode 5D (R162). -/
def execEorAbsX (addr : Addr) (s : State) : Result := .next (logicA (· ^^^ ·) (.memory (.absoluteX addr)) s)

/-- EOR addr,Y, opcode 59 (R162). -/
def execEorAbsY (addr : Addr) (s : State) : Result := .next (logicA (· ^^^ ·) (.memory (.absoluteY addr)) s)

/-- EOR (b,X), opcode 41 (R162). -/
def execEorIndX (b : Byte) (s : State) : Result := .next (logicA (· ^^^ ·) (.memory (.indirectX b)) s)

/-- EOR (b),Y, opcode 51 (R162). -/
def execEorIndY (b : Byte) (s : State) : Result := .next (logicA (· ^^^ ·) (.memory (.indirectY b)) s)

/-- ORA #v, opcode 09 (R163). -/
def execOraImm (v : Byte) (s : State) : Result := .next (logicA (· ||| ·) (.immediate v) s)

/-- ORA b, opcode 05 (R163). -/
def execOraZp (b : Byte) (s : State) : Result := .next (logicA (· ||| ·) (.memory (.zeroPage b)) s)

/-- ORA b,X, opcode 15 (R163). -/
def execOraZpX (b : Byte) (s : State) : Result := .next (logicA (· ||| ·) (.memory (.zeroPageX b)) s)

/-- ORA addr, opcode 0D (R163). -/
def execOraAbs (addr : Addr) (s : State) : Result := .next (logicA (· ||| ·) (.memory (.absolute addr)) s)

/-- ORA addr,X, opcode 1D (R163). -/
def execOraAbsX (addr : Addr) (s : State) : Result := .next (logicA (· ||| ·) (.memory (.absoluteX addr)) s)

/-- ORA addr,Y, opcode 19 (R163). -/
def execOraAbsY (addr : Addr) (s : State) : Result := .next (logicA (· ||| ·) (.memory (.absoluteY addr)) s)

/-- ORA (b,X), opcode 01 (R163). -/
def execOraIndX (b : Byte) (s : State) : Result := .next (logicA (· ||| ·) (.memory (.indirectX b)) s)

/-- ORA (b),Y, opcode 11 (R163). -/
def execOraIndY (b : Byte) (s : State) : Result := .next (logicA (· ||| ·) (.memory (.indirectY b)) s)

/-- BIT b, opcode 24 (R164). -/
def execBitZp (b : Byte) (s : State) : Result := .next (bitTest (.zeroPage b) s)

/-- BIT addr, opcode 2C (R164). -/
def execBitAbs (addr : Addr) (s : State) : Result := .next (bitTest (.absolute addr) s)

/-- ADC #v, opcode 69 (R168). -/
def execAdcImm (v : Byte) (s : State) : Result := .next (addToA id (.immediate v) s)

/-- ADC b, opcode 65 (R168). -/
def execAdcZp (b : Byte) (s : State) : Result := .next (addToA id (.memory (.zeroPage b)) s)

/-- ADC b,X, opcode 75 (R168). -/
def execAdcZpX (b : Byte) (s : State) : Result := .next (addToA id (.memory (.zeroPageX b)) s)

/-- ADC addr, opcode 6D (R168). -/
def execAdcAbs (addr : Addr) (s : State) : Result := .next (addToA id (.memory (.absolute addr)) s)

/-- ADC addr,X, opcode 7D (R168). -/
def execAdcAbsX (addr : Addr) (s : State) : Result := .next (addToA id (.memory (.absoluteX addr)) s)

/-- ADC addr,Y, opcode 79 (R168). -/
def execAdcAbsY (addr : Addr) (s : State) : Result := .next (addToA id (.memory (.absoluteY addr)) s)

/-- ADC (b,X), opcode 61 (R168). -/
def execAdcIndX (b : Byte) (s : State) : Result := .next (addToA id (.memory (.indirectX b)) s)

/-- ADC (b),Y, opcode 71 (R168). -/
def execAdcIndY (b : Byte) (s : State) : Result := .next (addToA id (.memory (.indirectY b)) s)

/-- SBC #v, opcode E9 (R169). -/
def execSbcImm (v : Byte) (s : State) : Result := .next (addToA complement (.immediate v) s)

/-- SBC b, opcode E5 (R169). -/
def execSbcZp (b : Byte) (s : State) : Result := .next (addToA complement (.memory (.zeroPage b)) s)

/-- SBC b,X, opcode F5 (R169). -/
def execSbcZpX (b : Byte) (s : State) : Result := .next (addToA complement (.memory (.zeroPageX b)) s)

/-- SBC addr, opcode ED (R169). -/
def execSbcAbs (addr : Addr) (s : State) : Result := .next (addToA complement (.memory (.absolute addr)) s)

/-- SBC addr,X, opcode FD (R169). -/
def execSbcAbsX (addr : Addr) (s : State) : Result := .next (addToA complement (.memory (.absoluteX addr)) s)

/-- SBC addr,Y, opcode F9 (R169). -/
def execSbcAbsY (addr : Addr) (s : State) : Result := .next (addToA complement (.memory (.absoluteY addr)) s)

/-- SBC (b,X), opcode E1 (R169). -/
def execSbcIndX (b : Byte) (s : State) : Result := .next (addToA complement (.memory (.indirectX b)) s)

/-- SBC (b),Y, opcode F1 (R169). -/
def execSbcIndY (b : Byte) (s : State) : Result := .next (addToA complement (.memory (.indirectY b)) s)

/-- CMP #v, opcode C9 (R171). -/
def execCmpImm (v : Byte) (s : State) : Result := .next (compareReg .a (.immediate v) s)

/-- CMP b, opcode C5 (R171). -/
def execCmpZp (b : Byte) (s : State) : Result := .next (compareReg .a (.memory (.zeroPage b)) s)

/-- CMP b,X, opcode D5 (R171). -/
def execCmpZpX (b : Byte) (s : State) : Result := .next (compareReg .a (.memory (.zeroPageX b)) s)

/-- CMP addr, opcode CD (R171). -/
def execCmpAbs (addr : Addr) (s : State) : Result := .next (compareReg .a (.memory (.absolute addr)) s)

/-- CMP addr,X, opcode DD (R171). -/
def execCmpAbsX (addr : Addr) (s : State) : Result := .next (compareReg .a (.memory (.absoluteX addr)) s)

/-- CMP addr,Y, opcode D9 (R171). -/
def execCmpAbsY (addr : Addr) (s : State) : Result := .next (compareReg .a (.memory (.absoluteY addr)) s)

/-- CMP (b,X), opcode C1 (R171). -/
def execCmpIndX (b : Byte) (s : State) : Result := .next (compareReg .a (.memory (.indirectX b)) s)

/-- CMP (b),Y, opcode D1 (R171). -/
def execCmpIndY (b : Byte) (s : State) : Result := .next (compareReg .a (.memory (.indirectY b)) s)

/-- CPX #v, opcode E0 (R172). -/
def execCpxImm (v : Byte) (s : State) : Result := .next (compareReg .x (.immediate v) s)

/-- CPX b, opcode E4 (R172). -/
def execCpxZp (b : Byte) (s : State) : Result := .next (compareReg .x (.memory (.zeroPage b)) s)

/-- CPX addr, opcode EC (R172). -/
def execCpxAbs (addr : Addr) (s : State) : Result := .next (compareReg .x (.memory (.absolute addr)) s)

/-- CPY #v, opcode C0 (R173). -/
def execCpyImm (v : Byte) (s : State) : Result := .next (compareReg .y (.immediate v) s)

/-- CPY b, opcode C4 (R173). -/
def execCpyZp (b : Byte) (s : State) : Result := .next (compareReg .y (.memory (.zeroPage b)) s)

/-- CPY addr, opcode CC (R173). -/
def execCpyAbs (addr : Addr) (s : State) : Result := .next (compareReg .y (.memory (.absolute addr)) s)

end Sys2Proof.Machine
end

