-- ==== Sys2Proof/Machine/TransferStack.lean ====
section
/-! DEFINITION. Register transfers and the stack (41_transfer_stack.md R140 to R151). One definition per instruction, over the shared operations. -/

namespace Sys2Proof.Machine

/-- `R <- A` with Z and N from the pulled byte (R150): pull, then write A. -/
def pullA (s : State) : State :=
  let m := s.pull
  m.2.result .a m.1

/-- `P <- Pull() | 0x20`, bit 4 copied (R151). -/
def pullP (s : State) : State :=
  let m := s.pull
  m.2.withP (pulledStatus m.1)

/-- TAX, opcode AA (R141). -/
def execTax (s : State) : Result := .next (s.result .x s.a)

/-- TAY, opcode A8 (R142). -/
def execTay (s : State) : Result := .next (s.result .y s.a)

/-- TXA, opcode 8A (R143). -/
def execTxa (s : State) : Result := .next (s.result .a s.x)

/-- TYA, opcode 98 (R144). -/
def execTya (s : State) : Result := .next (s.result .a s.y)

/-- TSX, opcode BA (R145). -/
def execTsx (s : State) : Result := .next (s.result .x s.sp)

/-- TXS, opcode 9A (R146). -/
def execTxs (s : State) : Result := .next (s.withSp s.x)

/-- PHA, opcode 48 (R148). -/
def execPha (s : State) : Result := .next (s.push s.a)

/-- PHP, opcode 08 (R149). -/
def execPhp (s : State) : Result := .next (s.push (pushedByInstruction s.p))

/-- PLA, opcode 68 (R150). -/
def execPla (s : State) : Result := .next (pullA s)

/-- PLP, opcode 28 (R151). -/
def execPlp (s : State) : Result := .next (pullP s)

end Sys2Proof.Machine
end

