-- ==== Sys2Proof/Machine/Fetch.lean ====
section
/-! DEFINITION. Fetching an instruction (30_encoding.md R85, R86, R90): which bytes are read, in which order, and where PC
stands afterwards. -/

namespace Sys2Proof.Machine

/-- A call begins with no access made and no count returned. -/
def State.beginCall (s : State) : State := (s.withAccesses []).withCycles none

/-- The address `k` bytes after `a`, modulo 65 536 (10_state.md R35; 92_eei_decisions.md D22). -/
def addrPlus (a : Addr) (k : Nat) : Addr := a + BitVec.ofNat 16 k

/-- `fetch()` (30_encoding.md R90): read the byte at PC and advance PC. -/
def State.fetchByte (s : State) (pc : Addr) : Byte × State :=
  let r := s.busRead pc
  (r.1, r.2.withPc (some (addrPlus pc 1)))

/-- Fetch the operand bytes a format has, from `pc` on, and build the instruction (30_encoding.md R83, R90; 20_memory.md R53). -/
def State.fetchOperands (s : State) (pc : Addr) : OpForm → Instr × State
  | .f1 i    => (i, s)
  | .f2 make => let b := s.fetchByte pc; (make b.1, b.2)
  | .f3 make =>
    let l := s.fetchByte pc
    let h := l.2.fetchByte (addrPlus pc 1)
    (make (w16 l.1 h.1), h.2)

/-- Fetch the instruction at `pc`: its opcode byte and then its operand bytes, each read once in order, PC past each
(30_encoding.md R85, R90; 20_memory.md R61). For an absent opcode byte, that byte and the state after its read (R86, R109). -/
def State.fetchInstr (s : State) (pc : Addr) : Except (Byte × State) (Instr × State) :=
  let o := s.fetchByte pc
  match opRow o.1 with
  | none   => .error o
  | some r => .ok (o.2.fetchOperands (addrPlus pc 1) r.form)

/-- Store the low `n` bytes of a number at `a` on, the least significant byte first, from outside (no access of the core). -/
def placeBytes (m : Memory) (a : Addr) (w : Nat) : Nat → Memory
  | 0     => m
  | n + 1 => placeBytes (m.write a.toNat (BitVec.ofNat 8 w)) (addrPlus a 1) (w / 256) n

end Sys2Proof.Machine
end

