-- ==== Sys2Proof/Machine/Step.lean ====
section
/-! DEFINITION. One `step()` (30_encoding.md R87; 60_exceptions.md R248) and the interface's way to place an instruction where
the next step fetches it. -/

namespace Sys2Proof.Machine

/-- `step()` (30_encoding.md R87): PcUndefined, else a pending NMI, else an accepted IRQ, else one instruction, in this order
(60_exceptions.md R248). -/
def step (s : State) : Host.Outcome State Fault Refusal :=
  match s.pc with
  | none => .fault .pcUndefined
  | some pc =>
    if s.nmiPending then charge interruptCycles (.next (s.beginCall.enterNmi pc))
    else if s.irqAccepted then charge interruptCycles (.next (s.beginCall.enterIrq pc))
    else
      match s.beginCall.fetchInstr pc with
      | .error (b, u) => .fault (.unsupportedOpcode b u)
      | .ok (i, u)    => charge (cycleCount i u) (exec i u)

/-- The address is plain RAM, its own cell. -/
def Params.plainRam (p : Params) (a : Addr) : Bool := p.isRam a && p.cell a == a

/-- The interface's placing of an instruction of `nbits` bits (the bits above are zero, up to three bytes) where the next step
fetches (log 10): its bytes at PC, 0x0000 if PC has no value; flat RAM for a bus with anything else there; and, since a step
enters a pending interrupt instead of fetching (60_exceptions.md R248), no NMI pending and no IRQ that would be accepted. -/
def State.withFetchWord (s : State) (nbits w : Nat) : State :=
  let pc := s.pc.getD 0x0000#16
  let plain := s.params.plainRam pc && s.params.plainRam (addrPlus pc 1) && s.params.plainRam (addrPlus pc 2)
  let map := if plain then s.params.busMap else []
  ((((s.withMem (placeBytes s.mem pc (w % 2 ^ nbits) 3)).withParams { s.params with busMap := map }).withPc (some pc)).withNmiPending
    false).withIrqLine (s.irqLine && s.flag .i)

end Sys2Proof.Machine
end

