-- ==== Sys2Proof/Machine/Lifecycle.lean ====
section
/-! DEFINITION. What the caller does to the core between steps: power-on, reset, interrupt inputs, observation
(00_scope.md R6; 10_state.md R39 to R41; 70_reset_and_hazards.md R270, R271; 60_exceptions.md R249). -/

namespace Sys2Proof.Machine

/-- `power_on()` (10_state.md R40; 70_reset_and_hazards.md R270): the registers get their power-on values; no bus access; the
bus, the parameters and the input line are not the core's and stay. -/
def State.powerOn (s : State) : State :=
  { s.beginCall with
    a := 0x00#8, x := 0x00#8, y := 0x00#8, sp := 0xFD#8, pc := none, p := 0x34#8, nmiPending := false }

/-- `reset()` (70_reset_and_hazards.md R271): SP down by 3 with no write, I set, PC from 0xFFFC, `nmi_pending` cleared (log 13). It
returns no cycle count. -/
def State.resetRoutine (s : State) : State :=
  let t := ((s.beginCall.withSp (s.sp - 3#8)).setFlag .i true).busRead16 resetVector
  (t.2.withPc (some t.1)).withNmiPending false

/-- `nmi_request()` (10_state.md R37; 60_exceptions.md R244). -/
def State.nmiRequest (s : State) : State := s.withNmiPending true

/-- The surrounding system drives `irq_line` to a level (10_state.md R37; 60_exceptions.md R243). -/
def State.driveIrqLine (s : State) (level : Bool) : State := s.withIrqLine level

/-- Another bus master writes a byte between steps (20_memory.md R63); it is no access of the core. -/
def State.externalWrite (s : State) (a : Addr) (v : Byte) : State :=
  s.withBusState (s.params.bus.write s.busState a v)

/-- What another chip does between steps to the devices on the bus, itself included (20_memory.md R63; log 16). -/
def State.devicesGoOn (s : State) (d : Nat) : State := s.withDeviceState d

/-- What the observation interface returns (10_state.md R39). -/
structure Observation where
  a  : Byte
  x  : Byte
  y  : Byte
  sp : Byte
  pc : Option Addr
  p  : Byte
  nmiPending : Bool
  deriving DecidableEq, Repr

/-- The read-only observation of the registers (10_state.md R39; 60_exceptions.md R254). -/
def State.observe (s : State) : Observation := ⟨s.a, s.x, s.y, s.sp, s.pc, s.p, s.nmiPending⟩

end Sys2Proof.Machine
end

