-- ==== Sys2Proof/Machine/Schedule.lean ====
section
/-! DEFINITION. The caller's schedule (60_exceptions.md R249): the calls and inputs it makes, one after another, between which
a step runs atomically (20_memory.md R64). -/

namespace Sys2Proof.Machine

/-- One thing the caller does (00_scope.md R6; 20_memory.md R63). -/
inductive CallerEvent
  | powerOn
  | reset
  | step
  | nmiRequest
  | irqLine (level : Bool)
  | busWrite (a : Addr) (v : Byte)
  | devicesGoOn (d : Nat)
  deriving DecidableEq, Repr

/-- The machine after one event. -/
def applyEvent (e : CallerEvent) (s : State) : Result :=
  match e with
  | .powerOn      => .next s.powerOn
  | .reset        => .next s.resetRoutine
  | .step         => step s
  | .nmiRequest   => .next s.nmiRequest
  | .irqLine l    => .next (s.driveIrqLine l)
  | .busWrite a v => .next (s.externalWrite a v)
  | .devicesGoOn d => .next (s.devicesGoOn d)

/-- The machine after a schedule; the run ends at the first failed step (60_exceptions.md R240; 92_eei_decisions.md D20; log 14). -/
def runSchedule : List CallerEvent → State → Result
  | [], s => .next s
  | e :: es, s =>
    match applyEvent e s with
    | .next t    => runSchedule es t
    | .fault f   => .fault f
    | .refused f => .refused f

end Sys2Proof.Machine
end

