-- ==== Sys2Proof/Safety.lean ====
section
/-! DEFINITION. What the claims call a good state, a completed step, and a run of the bus. -/

namespace Sys2Proof.Machine

/-- The invariant of the machine: bit 5 of P is 1 (10_state.md R25) and the memory is in canonical form. -/
abbrev State.Inv (s : State) : Prop := s.p.getLsbD 5 = true ∧ s.mem.wf = true

/-- A result that keeps the invariant: in the next state, or in the state an unsupported opcode leaves behind. -/
def Result.KeepsInv (r : Result) : Prop :=
  match r with
  | .next t => t.Inv
  | .fault .pcUndefined => True
  | .fault (.unsupportedOpcode _ t) => t.Inv
  | .refused _ => True

/-- A step or an instruction completes. -/
def Result.Completes (r : Result) : Prop := ∃ t, r = .next t

/-- A run of accesses on a bus, one after another (20_memory.md R63): the bus afterwards, none where some read would not answer
the byte listed. -/
def Bus.run {σ : Type} (B : Bus σ) : List Access → σ → Option σ
  | [], b => some b
  | .read a v :: l, b => if (B.read b a).1 = v then B.run l (B.read b a).2 else none
  | .write a v :: l, b => B.run l (B.write b a v)

/-- The same state with another bus behind it. -/
def State.onBus (s : State) (p : Params) (b : Memory × Nat) : State := { s with params := p, mem := b.1, deviceState := b.2 }

/-- The rows of devices that take a list of accesses, their state counting the accesses from `n`. -/
def scriptRows : List Access → Nat → List DeviceRow × List DeviceRow
  | [], _ => ([], [])
  | .read a v :: l, n => (⟨n, a, v, n + 1⟩ :: (scriptRows l (n + 1)).1, (scriptRows l (n + 1)).2)
  | .write a v :: l, n => ((scriptRows l (n + 1)).1, ⟨n, a, v, n + 1⟩ :: (scriptRows l (n + 1)).2)

/-- A bus that is nothing but devices, which from state 0 answer and take exactly these accesses. -/
def Params.script (l : List Access) (timing : List TimingRow) : Params :=
  ⟨[⟨0x0000#16, 0xFFFF#16, .device⟩], (scriptRows l 0).1, (scriptRows l 0).2, timing⟩

end Sys2Proof.Machine
end

