-- ==== Sys2Proof/Certificates/Slice0/Obligations.lean ====
section
/-! DEFINITION. The statements for the provers, from the numbered rules of spec/, and the words they are said in. A next state
is described by what each field becomes; `t = { s with … }` says that every field not named is unchanged (the frame). -/

namespace Sys2Proof.Claims

open Sys2Proof.Machine

/-- The rows of the opcode table with this mnemonic are exactly these: for every byte, its entry, where the entry is the
mnemonic's, is the one listed (opcode byte; mnemonic, mode, length, base cycles, page penalty). -/
def FormsAre (m : Mnemonic) (rows : List (Byte × OpEntry)) : Prop :=
  ∀ op : Byte, (opTab op).filter (fun e => e.mnem == m) = rows.lookup op

/-- The flags listed have the values listed, every other flag is unchanged, and bit 5 is 1 (10_state.md R25, R26). -/
def FlagsBecome (s t : State) (fs : List (Flag × Bool)) : Prop :=
  t.p.getLsbD 5 = true ∧ ∀ f, t.flag f = (fs.lookup f).getD (s.flag f)

/-- `setZN(v)` (00_scope.md R11). -/
def zn (v : Byte) : List (Flag × Bool) := [(.z, decide (v = 0#8)), (.n, v.getLsbD 7)]

/-- Every byte of memory reads as before, but for the cells the listed addresses name. (What a device would answer next is no byte
of memory.) On the reference bus each address is its own cell and no address is a device's. -/
def OthersUnchanged (s t : State) (as : List Addr) : Prop :=
  ∀ b, s.params.isDevice b = false → (∀ a ∈ as, s.params.cell b ≠ s.params.cell a) → t.peek b = s.peek b

/-- The byte `v` is written at `a`: it stands there if RAM is behind `a`, nothing changes if not, and every other byte reads as
before. -/
def ByteStored (s t : State) (a : Addr) (v : Byte) : Prop :=
  (s.mem.wf = true → s.params.isRam a = true → t.peek a = v) ∧
  (s.params.isRam a = false → t.mem = s.mem) ∧
  OthersUnchanged s t [a]

/-- The stack page is plain RAM: each of its addresses is its own cell (70_reset_and_hazards.md R274, item 4). -/
def StackPlain (s : State) : Prop :=
  ∀ sp : Byte, s.params.isRam (stackAddr sp) = true ∧ s.params.cell (stackAddr sp) = stackAddr sp

/-- Bus reads at these addresses, one after another: the bytes they give, and the state after them. -/
def readsAt : List Addr → State → List Byte × State
  | [], s => ([], s)
  | a :: as, s => let r := s.busRead a; let q := readsAt as r.2; (r.1 :: q.1, q.2)

/-- A write at `a` cannot change what a read at `v` gives: they name different cells, and not both are a device's. -/
def Apart (s : State) (a v : Addr) : Prop :=
  s.params.cell v ≠ s.params.cell a ∧ (s.params.isDevice a = false ∨ s.params.isDevice v = false)

/-- The instruction completes; the register gets `v`, Z and N follow it, and nothing else changes. -/
def RegisterGets (i : Instr) (s : State) (r : Reg) (v : Byte) : Prop :=
  ∃ t, exec i s = .next t ∧ t.reg r = v ∧ FlagsBecome s t (zn v) ∧ t = { s.setReg r v with p := t.p }

/-- An exception is entered: the high and the low byte of the return address and the status byte are pushed, SP is down by 3, I is
set, PC is the word at the vector, low byte read first, after the pushes; nothing else changes. The pushed bytes stand on the stack
where it is plain RAM, every other byte reads as before, and the vector's bytes are those that stood there before where the vector
is apart from the pushed bytes (45_flags_system.md R228; 60_exceptions.md R245). -/
def Entered (s t : State) (ret : Addr) (status : Byte) (vector : Addr) : Prop :=
  let slot1 := stackAddr s.sp
  let slot2 := stackAddr (s.sp - 1#8)
  let slot3 := stackAddr (s.sp - 2#8)
  let pushed := ((s.busWrite slot1 (hiByte ret)).busWrite slot2 (loByte ret)).busWrite slot3 status
  let lo := pushed.peek vector
  let hi := (pushed.busRead vector).2.peek (vector + 1#16)
  FlagsBecome s t [(.i, true)] ∧
  t = { s with
    sp := s.sp - 3#8, p := t.p, pc := some (w16 lo hi), mem := pushed.mem
    deviceState := (readsAt [vector, vector + 1#16] pushed).2.deviceState
    accesses := s.accesses ++ [.write slot1 (hiByte ret), .write slot2 (loByte ret), .write slot3 status,
      .read vector lo, .read (vector + 1#16) hi] } ∧
  (s.mem.wf = true → StackPlain s → t.peek slot1 = hiByte ret ∧ t.peek slot2 = loByte ret ∧ t.peek slot3 = status) ∧
  OthersUnchanged s t [slot1, slot2, slot3] ∧
  ((∀ a ∈ [slot1, slot2, slot3], ∀ v ∈ [vector, vector + 1#16], Apart s a v) →
    lo = s.peek vector ∧ hi = (s.busRead vector).2.peek (vector + 1#16))

/-- The status byte an interrupt entry pushes (60_exceptions.md R245). -/
def interruptStatus (p : Byte) : Byte := (p &&& 0xEF#8) ||| 0x20#8

/-- A step at this state reaches the instruction fetch at `pc`: PC has a value, no NMI is pending, and IRQ is not asserted
unmasked (60_exceptions.md R248). -/
def AtFetch (s : State) (pc : Addr) : Prop :=
  s.pc = some pc ∧ s.nmiPending = false ∧ (s.irqLine = true → s.flag .i = true)

/-- The addresses of the bytes of an instruction at `pc`, modulo 65 536. -/
def bytesOf (i : Instr) (pc : Addr) : List Addr :=
  (List.range (encode i).length).map (fun k => BitVec.ofNat 16 (pc.toNat + k))

/-- The bytes read at `pc`, as many as the instruction has, decode to it. -/
def decodesAt (s : State) (pc : Addr) (i : Instr) : Prop := decode (readsAt (bytesOf i pc) s).1 = .ok (i, [])

/-- The state in which a step runs the instruction at `pc`: its bytes have been read, each once and in order, as the only
accesses so far, and PC is past them. -/
def fetched (s : State) (pc : Addr) (i : Instr) : State :=
  { (readsAt (bytesOf i pc) { s with cycles := none, accesses := [] }).2 with
    pc := some (BitVec.ofNat 16 (pc.toNat + (encode i).length)) }

/-- A step enters an interrupt at this state, and not an instruction (60_exceptions.md R248). -/
def AtEntry (s : State) : Prop := s.pc ≠ none ∧ (s.nmiPending = true ∨ (s.irqLine = true ∧ s.flag .i = false))

/-- The 105 byte values absent from the opcode table (30_encoding.md R109). -/
def absentBytes : List Nat :=
  [0x02, 0x03, 0x04, 0x07, 0x0B, 0x0C, 0x0F, 0x12, 0x13, 0x14, 0x17, 0x1A, 0x1B, 0x1C, 0x1F,
   0x22, 0x23, 0x27, 0x2B, 0x2F, 0x32, 0x33, 0x34, 0x37, 0x3A, 0x3B, 0x3C, 0x3F, 0x42, 0x43,
   0x44, 0x47, 0x4B, 0x4F, 0x52, 0x53, 0x54, 0x57, 0x5A, 0x5B, 0x5C, 0x5F, 0x62, 0x63, 0x64,
   0x67, 0x6B, 0x6F, 0x72, 0x73, 0x74, 0x77, 0x7A, 0x7B, 0x7C, 0x7F, 0x80, 0x82, 0x83, 0x87,
   0x89, 0x8B, 0x8F, 0x92, 0x93, 0x97, 0x9B, 0x9C, 0x9E, 0x9F, 0xA3, 0xA7, 0xAB, 0xAF, 0xB2,
   0xB3, 0xB7, 0xBB, 0xBF, 0xC2, 0xC3, 0xC7, 0xCB, 0xCF, 0xD2, 0xD3, 0xD4, 0xD7, 0xDA, 0xDB,
   0xDC, 0xDF, 0xE2, 0xE3, 0xE7, 0xEB, 0xEF, 0xF2, 0xF3, 0xF4, 0xF7, 0xFA, 0xFB, 0xFC, 0xFF]

/-- The register a load writes (40_load_store.md R131 to R133). -/
def loadRegister : Mnemonic → Option Reg
  | .lda => some .a
  | .ldx => some .x
  | .ldy => some .y
  | _ => none

/-- The register a store stores (40_load_store.md R134 to R136). -/
def storeRegister : Mnemonic → Option Reg
  | .sta => some .a
  | .stx => some .x
  | .sty => some .y
  | _ => none

/-- The register a compare compares (42_logic_arith.md R171 to R173). -/
def compareRegister : Mnemonic → Option Reg
  | .cmp => some .a
  | .cpx => some .x
  | .cpy => some .y
  | _ => none

/-- The flag a branch tests and the value on which it is taken (44_control.md R205 to R212). -/
def takenWhen : Mnemonic → Option (Flag × Bool)
  | .bcc => some (.c, false)
  | .bcs => some (.c, true)
  | .beq => some (.z, true)
  | .bne => some (.z, false)
  | .bmi => some (.n, true)
  | .bpl => some (.n, false)
  | .bvc => some (.v, false)
  | .bvs => some (.v, true)
  | _ => none

/-- The flag a flag instruction writes and the value it writes (45_flags_system.md R221 to R227). -/
def flagWritten : Mnemonic → Option (Flag × Bool)
  | .clc => some (.c, false)
  | .cld => some (.d, false)
  | .cli => some (.i, false)
  | .clv => some (.v, false)
  | .sec => some (.c, true)
  | .sed => some (.d, true)
  | .sei => some (.i, true)
  | _ => none

/-- The result of a shift or rotate and the new carry, from the byte and the old carry, as numbers
(43_incdec_shift.md R188 to R191). -/
def shifted (m : Mnemonic) (o c : Nat) : Option (Nat × Bool) :=
  match m with
  | .asl => some (2 * o % 256, decide (128 ≤ o))
  | .lsr => some (o / 2, decide (o % 2 = 1))
  | .rol => some ((2 * o + c) % 256, decide (128 ≤ o))
  | .ror => some (o / 2 + 128 * c, decide (o % 2 = 1))
  | _ => none

/-- Push bytes one after another. -/
def pushAll : List Byte → State → State
  | [], s => s
  | v :: vs, s => pushAll vs (s.push v)

/-- Pull `n` bytes, the first pulled first. -/
def pullAll : Nat → State → List Byte × State
  | 0, s => ([], s)
  | n + 1, s => let r := s.pull; let q := pullAll n r.2; (r.1 :: q.1, q.2)

/-- Change the state inside a result. -/
def mapState (f : State → State) : Result → Result
  | .next t => .next (f t)
  | .fault (.unsupportedOpcode b t) => .fault (.unsupportedOpcode b (f t))
  | .fault .pcUndefined => .fault .pcUndefined
  | .refused r => .refused r

/-- The state with the stored bit 4 (B) cleared. -/
def eraseB (s : State) : State := { s with p := s.p &&& 0xEF#8 }

/-- The state with the stored bit 3 (D) cleared. -/
def eraseD (s : State) : State := { s with p := s.p &&& 0xF7#8 }

/-- The bytes of a vector as an exception reads them, after its return address and its status byte are pushed. -/
def vectorAfter (s : State) (ret : Addr) (status : Byte) (vector : Addr) : List Byte :=
  (readsAt [vector, vector + 1#16] (((s.busWrite (stackAddr s.sp) (hiByte ret)).busWrite (stackAddr (s.sp - 1#8)) (loByte ret)).busWrite
    (stackAddr (s.sp - 2#8)) status)).1

/-- Two states after a push of a status byte differ at most in D and in bit 3 of that byte, on the stack, in the access list and,
where a device stands behind the stack, in what that byte made of the devices: `t` and the one, `t'`, that ran with D clear. -/
def OnlyThePushedDDiffers (s t t' : State) (slot : Addr) : Prop :=
  t' = { eraseD t with mem := t'.mem, deviceState := t'.deviceState, accesses := t'.accesses } ∧
  (s.params.isDevice slot = false → t'.deviceState = t.deviceState) ∧
  (∃ l r v, t.accesses = l ++ .write slot v :: r ∧ t'.accesses = l ++ .write slot (v &&& 0xF7#8) :: r) ∧
  ∀ b, s.params.isDevice b = false →
    (s.params.cell b ≠ s.params.cell slot → t'.peek b = t.peek b) ∧
    (s.mem.wf = true → t'.peek b &&& 0xF7#8 = t.peek b &&& 0xF7#8)

end Sys2Proof.Claims

open Sys2Proof Sys2Proof.Machine Sys2Proof.Claims

/-! ## Encoding -/

/-- Every instruction, every operand value: no bit of an encoding is dropped. -/
def Obligations.DecodeAfterEncodeReturnsTheInstruction : Prop :=
  ∀ (i : Instr) (rest : List Byte), i.wellFormed = true → decode (encode i ++ rest) = .ok (i, rest)

/-- Each byte sequence has one meaning. -/
def Obligations.EncodeAfterDecodeReturnsTheBytes : Prop :=
  ∀ (bs rest : List Byte) (i : Instr), decode bs = .ok (i, rest) →
    encode i ++ rest = bs ∧ wellFormedBytes (encode i) = true

/-- 30_encoding.md R109: the list of absent bytes, and no reserved operand byte. -/
def Obligations.ExactlyTheListedBytesAreAbsent : Prop :=
  absentBytes.length = 105 ∧
  ∀ op b1 b2 : Byte, decode3 op b1 b2 = none ↔ op.toNat ∈ absentBytes

/-- 30_encoding.md R83: the formats F1, F2, F3, and the length as the spec infers it from the modes. -/
def Obligations.TheOpcodeByteFixesModeAndLength : Prop :=
  ∀ (op b1 b2 : Byte) (i : Instr), decode3 op b1 b2 = some i →
    (∃ e, opTab op = some e ∧ i.mnemonic = e.mnem ∧ i.mode = e.mode ∧ (encode i).length = e.len
      ∧ e.len = 1 + e.mode.operandBytes) ∧
    encode i = [op, b1, b2].take (1 + i.mode.operandBytes) ∧
    (i.mode.operandBytes = 0 ↔ i.mode = .implicit ∨ i.mode = .accumulator) ∧
    (i.mode.operandBytes = 2 ↔
      i.mode = .absolute ∨ i.mode = .absoluteX ∨ i.mode = .absoluteY ∨ i.mode = .indirect) ∧
    i.mode.operandBytes ≤ 2

/-- A sanity statement on fixed words. -/
def Obligations.WrittenOutWordsDecode : Prop :=
  decode3 0xB1#8 0x40#8 0x00#8 = some (.ldaIndY 0x40#8) ∧
  decode3 0x9D#8 0xFF#8 0x02#8 = some (.staAbsX 0x02FF#16) ∧
  decode3 0x68#8 0x00#8 0x00#8 = some .pla ∧
  decode3 0x2C#8 0x00#8 0x03#8 = some (.bitAbs 0x0300#16) ∧
  decode3 0x7E#8 0xFF#8 0x02#8 = some (.rorAbsX 0x02FF#16) ∧
  decode3 0x6C#8 0xFF#8 0x30#8 = some (.jmpInd 0x30FF#16) ∧
  decode3 0xF0#8 0x7F#8 0x00#8 = some (.beq 0x7F#8) ∧
  decode3 0x00#8 0xAA#8 0x00#8 = some .brk ∧
  decode3 0x02#8 0x00#8 0x00#8 = none ∧
  decode3 0x1A#8 0x00#8 0x00#8 = none

/-! ## The step -/

/-- The per-instruction statements reach a run through this one. -/
def Obligations.AStepRunsTheDecodedInstruction : Prop :=
  ∀ (s : State) (pc : Addr) (i : Instr), AtFetch s pc → decodesAt s pc i →
    step s = match exec i (fetched s pc i) with
      | .next t => .next { t with cycles := some (cycleCount i (fetched s pc i)) }
      | r => r

/-- 60_exceptions.md R240; that the run ends there is the spec's own decision D20 (log 14), as the list of absent bytes is its
own inference from the table (log 6). -/
def Obligations.AnAbsentOpcodeByteStopsTheStep : Prop :=
  ∀ (s : State) (pc : Addr), AtFetch s pc → (s.peek pc).toNat ∈ absentBytes →
    let f : Fault := .unsupportedOpcode (s.peek pc)
      { s with
        pc := some (pc + 1#16), cycles := none, accesses := [.read pc (s.peek pc)]
        deviceState := (s.busRead pc).2.deviceState }
    step s = .fault f ∧ ∀ es, runSchedule (.step :: es) s = .fault f

/-- 60_exceptions.md R241, the spec's own decision D2. -/
def Obligations.AStepWithoutPcFails : Prop :=
  ∀ s : State, (s.pc = none → step s = .fault .pcUndefined) ∧ step s.powerOn = .fault .pcUndefined

/-- 60_exceptions.md R244, R245, R248, with the spec's own decisions D5 to D8 (log 6, log 15). -/
def Obligations.APendingNmiIsEntered : Prop :=
  (∀ s : State, s.nmiRequest = { s with nmiPending := true } ∧ s.nmiRequest.nmiRequest = s.nmiRequest) ∧
  ∀ (s : State) (pc : Addr), s.pc = some pc → s.nmiPending = true →
    ∃ t, step s = .next { t with cycles := some 7 } ∧
      Entered { s with nmiPending := false, cycles := none, accesses := [] } t pc (interruptStatus s.p) 0xFFFA#16

/-- 60_exceptions.md R243, R245, R248, with the spec's own decisions D5 to D8 (log 6, log 15). -/
def Obligations.AnUnmaskedIrqIsEntered : Prop :=
  ∀ (s : State) (pc : Addr), s.pc = some pc → s.nmiPending = false → s.irqLine = true → s.flag .i = false →
    ∃ t, step s = .next { t with cycles := some 7 } ∧
      Entered { s with cycles := none, accesses := [] } t pc (interruptStatus s.p) 0xFFFE#16

/-- 60_exceptions.md R242: there is no other synchronous condition. The clauses rest on the spec's own decisions D2 (a PC without a
value) and D7 (NMI before IRQ before the fetch), and on the list of absent bytes, its own inference from the table (log 6). -/
def Obligations.AStepCompletesExactlyWhereTheSpecSaysSo : Prop :=
  ∀ s : State,
    ((∃ t, step s = .next t) ↔
      ∃ pc, s.pc = some pc ∧
        (s.nmiPending = true ∨ (s.irqLine = true ∧ s.flag .i = false) ∨ (s.peek pc).toNat ∉ absentBytes)) ∧
    ∀ r, step s ≠ .refused r

/-- 60_exceptions.md R242: no instruction-level operation fails. -/
def Obligations.NoInstructionFailsWherePcHasAValue : Prop :=
  ∀ (i : Instr) (s : State), s.pc ≠ none →
    ∃ t, exec i s = .next t ∧ t.pc ≠ none ∧ t.params = s.params ∧ t.nmiPending = s.nmiPending ∧ t.irqLine = s.irqLine ∧
      t.cycles = s.cycles ∧ ∃ l, t.accesses = s.accesses ++ l

/-- The model's choice (log 11): a step never runs an instruction there (60_exceptions.md R241). -/
def Obligations.InstructionsThatNeedPcStopWithoutIt : Prop :=
  ∀ (i : Instr) (s : State), s.pc = none →
    (exec i s = .fault .pcUndefined ↔
      i.mnemonic ∈ [.brk, .jsr, .bcc, .bcs, .beq, .bne, .bmi, .bpl, .bvc, .bvs]) ∧
    (i.mnemonic ∉ [.brk, .jsr, .bcc, .bcs, .beq, .bne, .bmi, .bpl, .bvc, .bvs] → ∃ t, exec i s = .next t)

/-! ## Power-on and reset -/

/-- 70_reset_and_hazards.md R271; 10_state.md R41; the cleared latch is the spec's own decision D16 (log 13), SP after both
calls its own inference D3 (log 9). -/
def Obligations.ResetRoutineFromAnyState : Prop :=
  ∀ s : State,
    let lo := s.peek 0xFFFC#16
    let hi := (s.busRead 0xFFFC#16).2.peek 0xFFFD#16
    s.resetRoutine = { s with
      sp := s.sp - 3#8, p := s.p ||| 0x24#8, nmiPending := false, cycles := none, pc := some (w16 lo hi)
      deviceState := (readsAt [0xFFFC#16, 0xFFFD#16] s).2.deviceState
      accesses := [.read 0xFFFC#16 lo, .read 0xFFFD#16 hi] } ∧
    let t := s.powerOn.resetRoutine
    t.a = 0x00#8 ∧ t.x = 0x00#8 ∧ t.y = 0x00#8 ∧ t.sp = 0xFA#8 ∧ t.p = 0x34#8 ∧ t.pc = some (w16 lo hi)

/-- 10_state.md R40; 70_reset_and_hazards.md R270; the PC without value and the latch are the spec's own decisions D2, D6. -/
def Obligations.PowerOnValues : Prop :=
  ∀ s : State, s.powerOn = { s with
    a := 0x00#8, x := 0x00#8, y := 0x00#8, sp := 0xFD#8, p := 0x34#8, pc := none, nmiPending := false,
    cycles := none, accesses := [] } ∧ step s.powerOn = .fault .pcUndefined

/-- The values are the spec's (10_state.md R40, R41); the empty memory (log 2), the low IRQ line (log 4) and the device state
(log 16) are the model's choice. -/
def Obligations.TheResetStateIsPowerOnThenReset : Prop :=
  ∀ s : State, s.params = Params.reference → s.mem = [] → s.deviceState = 0 → s.irqLine = false →
    s.powerOn.resetRoutine = State.reset

/-! ## Invariants -/

/-- 10_state.md R25, and the canonical form of the model's memory (log 1), over all instructions and interrupts. -/
def Obligations.EveryStepKeepsTheInvariant : Prop :=
  ∀ s t : State, s.Inv → step s = .next t → t.Inv ∧ t.params = s.params

/-- 10_state.md R25 over every caller's schedule (60_exceptions.md R249). -/
def Obligations.EveryScheduleKeepsTheInvariant : Prop :=
  ∀ (es : List CallerEvent) (s t : State), s.Inv → runSchedule es s = .next t → t.Inv ∧ t.params = s.params

/-- The invariant's start. -/
def Obligations.TheResetStateMeetsTheInvariant : Prop := State.reset.Inv

/-- The canonical form (log 1, the model's choice) holds contents and nothing else. -/
def Obligations.CanonicalMemoriesThatReadAlikeAreEqual : Prop :=
  ∀ m n : Memory, m.wf = true → n.wf = true → (∀ a : Addr, m.read a.toNat = n.read a.toNat) → m = n

/-! ## Status bits, the stack, words -/

/-- 10_state.md R26, with the layout of R24. -/
def Obligations.SetBitWritesOneBit : Prop :=
  [Flag.c, .z, .i, .d, .b, .v, .n].map Flag.bit = [0, 1, 2, 3, 4, 6, 7] ∧
  ∀ (p : Byte) (k j : Nat) (b : Bool), k < 8 → j < 8 →
    getBit (setBit p k b) j = (if j = 5 then true else if j = k then b else getBit p j) ∧
    getBit p j = p.getLsbD j ∧
    ∀ f : Flag, setFlag p f b = setBit p f.bit b ∧ getFlag p f = getBit p f.bit

/-- 20_memory.md R57, R58. -/
def Obligations.PushAndPullMoveOneByte : Prop :=
  ∀ (s : State) (v : Byte),
    (∀ sp : Byte, (stackAddr sp).toNat = 0x100 + sp.toNat) ∧
    ByteStored s (s.push v) (stackAddr s.sp) v ∧
    s.push v = { s.busWrite (stackAddr s.sp) v with sp := s.sp - 1#8 } ∧
    (s.push v).accesses = s.accesses ++ [.write (stackAddr s.sp) v] ∧
    let a := stackAddr (s.sp + 1#8)
    s.pull = (s.peek a, { s with
      sp := s.sp + 1#8, deviceState := (s.busRead a).2.deviceState, accesses := s.accesses ++ [.read a (s.peek a)] })

/-- 20_memory.md R59: LIFO from any SP. -/
def Obligations.TheStackIsLastInFirstOut : Prop :=
  ∀ (vs : List Byte) (s : State), s.mem.wf = true → StackPlain s → vs.length ≤ 256 →
    (pullAll vs.length (pushAll vs s)).1 = vs.reverse ∧ (pullAll vs.length (pushAll vs s)).2.sp = s.sp

/-- 20_memory.md R53, R54; 00_scope.md R12. -/
def Obligations.WordsAreReadLittleEndianWithTheirWraps : Prop :=
  ∀ (s : State) (a : Addr) (z : Byte),
    let word (w : Addr × State) (n m : Nat) : Prop :=
      let lo := s.busRead (BitVec.ofNat 16 n)
      let hi := lo.2.busRead (BitVec.ofNat 16 m)
      w.1.toNat = lo.1.toNat + 256 * hi.1.toNat ∧ w.2 = hi.2
    word (s.busRead16 a) a.toNat ((a.toNat + 1) % 65536) ∧
    word (s.zpRead16 z) z.toNat ((z.toNat + 1) % 256)

/-- 30_encoding.md R94 to R98, R100 to R103 and R104's single read, in arithmetic on numbers; the wrap of the IndirectY pointer is the spec's own
decision D10 (log 15). -/
def Obligations.AddressingModesComputeTheEffectiveAddress : Prop :=
  ∀ (s : State) (b : Byte) (a : Addr),
    let lo (n : Nat) : Byte × State := s.busRead (BitVec.ofNat 16 n)
    let hi (n m : Nat) : Byte × State := (lo n).2.busRead (BitVec.ofNat 16 m)
    let word (n m : Nat) : Nat := (lo n).1.toNat + 256 * (hi n m).1.toNat
    let is (f : AddrForm) (ea base : Nat) (after : State) : Prop :=
      (resolve f s).ea.toNat = ea ∧ ((resolve f s).crossed = true ↔ base / 256 ≠ ea / 256) ∧ (resolve f s).st = after
    let bx := (b.toNat + s.x.toNat) % 256
    let bx1 := (bx + 1) % 256
    let b1 := (b.toNat + 1) % 256
    let ph := a.toNat / 256 * 256 + (a.toNat + 1) % 256
    is (.zeroPage b) b.toNat b.toNat s ∧
    is (.zeroPageX b) bx bx s ∧
    is (.zeroPageY b) ((b.toNat + s.y.toNat) % 256) ((b.toNat + s.y.toNat) % 256) s ∧
    is (.absolute a) a.toNat a.toNat s ∧
    is (.absoluteX a) ((a.toNat + s.x.toNat) % 65536) a.toNat s ∧
    is (.absoluteY a) ((a.toNat + s.y.toNat) % 65536) a.toNat s ∧
    is (.indirect a) (word a.toNat ph) (word a.toNat ph) (hi a.toNat ph).2 ∧
    is (.indirectX b) (word bx bx1) (word bx bx1) (hi bx bx1).2 ∧
    is (.indirectY b) ((word b.toNat b1 + s.y.toNat) % 65536) (word b.toNat b1) (hi b.toNat b1).2 ∧
    (∀ f, (Source.memory f).read s = (resolve f s).st.busRead (resolve f s).ea) ∧
    ∀ v, (Source.immediate v).read s = (v, s)

/-! ## Load and store -/

/-- 40_load_store.md R130 to R133. The opcode bytes, lengths, base counts and page penalties are the spec's
reference table (R105, R107, its own decisions D12 and D13; log 6). -/
def Obligations.LoadsPutTheOperandInTheirRegister : Prop :=
  FormsAre .lda
    [(0xA9#8, ⟨.lda, .immediate, 2, 2, false⟩), (0xA5#8, ⟨.lda, .zeroPage, 2, 3, false⟩),
     (0xB5#8, ⟨.lda, .zeroPageX, 2, 4, false⟩), (0xAD#8, ⟨.lda, .absolute, 3, 4, false⟩),
     (0xBD#8, ⟨.lda, .absoluteX, 3, 4, true⟩), (0xB9#8, ⟨.lda, .absoluteY, 3, 4, true⟩),
     (0xA1#8, ⟨.lda, .indirectX, 2, 6, false⟩), (0xB1#8, ⟨.lda, .indirectY, 2, 5, true⟩)] ∧
  FormsAre .ldx
    [(0xA2#8, ⟨.ldx, .immediate, 2, 2, false⟩), (0xA6#8, ⟨.ldx, .zeroPage, 2, 3, false⟩),
     (0xB6#8, ⟨.ldx, .zeroPageY, 2, 4, false⟩), (0xAE#8, ⟨.ldx, .absolute, 3, 4, false⟩),
     (0xBE#8, ⟨.ldx, .absoluteY, 3, 4, true⟩)] ∧
  FormsAre .ldy
    [(0xA0#8, ⟨.ldy, .immediate, 2, 2, false⟩), (0xA4#8, ⟨.ldy, .zeroPage, 2, 3, false⟩),
     (0xB4#8, ⟨.ldy, .zeroPageX, 2, 4, false⟩), (0xAC#8, ⟨.ldy, .absolute, 3, 4, false⟩),
     (0xBC#8, ⟨.ldy, .absoluteX, 3, 4, true⟩)] ∧
  ∀ (i : Instr) (r : Reg), loadRegister i.mnemonic = some r → ∃ src, sourceOf i.operand = some src ∧
    ∀ s : State, ∃ t, exec i s = .next t ∧ t.reg r = (src.read s).1 ∧ FlagsBecome s t (zn (src.read s).1) ∧
      t = { s.setReg r (src.read s).1 with
        p := t.p
        deviceState := (src.read s).2.deviceState, accesses := (src.read s).2.accesses }

/-- 40_load_store.md R130, R134 to R136. The opcode bytes, lengths, base counts and page penalties are the spec's
reference table (R105, R107, its own decisions D12 and D13; log 6). -/
def Obligations.StoresPutTheirRegisterInMemory : Prop :=
  FormsAre .sta
    [(0x85#8, ⟨.sta, .zeroPage, 2, 3, false⟩), (0x95#8, ⟨.sta, .zeroPageX, 2, 4, false⟩),
     (0x8D#8, ⟨.sta, .absolute, 3, 4, false⟩), (0x9D#8, ⟨.sta, .absoluteX, 3, 5, false⟩),
     (0x99#8, ⟨.sta, .absoluteY, 3, 5, false⟩), (0x81#8, ⟨.sta, .indirectX, 2, 6, false⟩),
     (0x91#8, ⟨.sta, .indirectY, 2, 6, false⟩)] ∧
  FormsAre .stx
    [(0x86#8, ⟨.stx, .zeroPage, 2, 3, false⟩), (0x96#8, ⟨.stx, .zeroPageY, 2, 4, false⟩),
     (0x8E#8, ⟨.stx, .absolute, 3, 4, false⟩)] ∧
  FormsAre .sty
    [(0x84#8, ⟨.sty, .zeroPage, 2, 3, false⟩), (0x94#8, ⟨.sty, .zeroPageX, 2, 4, false⟩),
     (0x8C#8, ⟨.sty, .absolute, 3, 4, false⟩)] ∧
  ∀ (i : Instr) (r : Reg), storeRegister i.mnemonic = some r → ∃ f, i.operand = .memory f ∧
    ∀ s : State,
      let l := resolve f s
      ∃ t, exec i s = .next t ∧ ByteStored s t l.ea (s.reg r) ∧
        t = { s with
          mem := t.mem, deviceState := (l.st.busWrite l.ea (s.reg r)).deviceState
          accesses := l.st.accesses ++ [.write l.ea (s.reg r)] }

/-! ## Transfers and the stack instructions -/

/-- 41_transfer_stack.md R141 to R146. -/
def Obligations.TransfersCopyARegister : Prop :=
  FormsAre .tax
    [(0xAA#8, ⟨.tax, .implicit, 1, 2, false⟩)] ∧
  FormsAre .tay
    [(0xA8#8, ⟨.tay, .implicit, 1, 2, false⟩)] ∧
  FormsAre .txa
    [(0x8A#8, ⟨.txa, .implicit, 1, 2, false⟩)] ∧
  FormsAre .tya
    [(0x98#8, ⟨.tya, .implicit, 1, 2, false⟩)] ∧
  FormsAre .tsx
    [(0xBA#8, ⟨.tsx, .implicit, 1, 2, false⟩)] ∧
  FormsAre .txs
    [(0x9A#8, ⟨.txs, .implicit, 1, 2, false⟩)] ∧
  ∀ s : State,
    RegisterGets .tax s .x s.a ∧ RegisterGets .tay s .y s.a ∧ RegisterGets .txa s .a s.x ∧
    RegisterGets .tya s .a s.y ∧ RegisterGets .tsx s .x s.sp ∧ exec .txs s = .next { s with sp := s.x }

/-- 41_transfer_stack.md R148, R149. -/
def Obligations.PushInstructionsStoreOneByte : Prop :=
  FormsAre .pha
    [(0x48#8, ⟨.pha, .implicit, 1, 3, false⟩)] ∧
  FormsAre .php
    [(0x08#8, ⟨.php, .implicit, 1, 3, false⟩)] ∧
  ∀ (s : State) (i : Instr) (v : Byte), (i = .pha ∧ v = s.a) ∨ (i = .php ∧ v = s.p ||| 0x30#8) →
    ∃ t, exec i s = .next t ∧ (stackAddr s.sp).toNat = 0x100 + s.sp.toNat ∧ ByteStored s t (stackAddr s.sp) v ∧
      t = { s.busWrite (stackAddr s.sp) v with sp := s.sp - 1#8 } ∧
      t.accesses = s.accesses ++ [.write (stackAddr s.sp) v]

/-- 41_transfer_stack.md R150, R151; that PLP copies bit 4 is the spec's own decision D4 (log 12). -/
def Obligations.PullInstructionsLoadOneByte : Prop :=
  FormsAre .pla
    [(0x68#8, ⟨.pla, .implicit, 1, 4, false⟩)] ∧
  FormsAre .plp
    [(0x28#8, ⟨.plp, .implicit, 1, 4, false⟩)] ∧
  ∀ s : State,
    let a := stackAddr (s.sp + 1#8)
    let v := s.peek a
    (∃ t, exec .pla s = .next t ∧ FlagsBecome s t (zn v) ∧
      t = { s with
        a := v, sp := s.sp + 1#8, p := t.p
        deviceState := (s.busRead a).2.deviceState, accesses := s.accesses ++ [.read a v] }) ∧
    exec .plp s = .next { s with
      sp := s.sp + 1#8, p := v ||| 0x20#8
      deviceState := (s.busRead a).2.deviceState, accesses := s.accesses ++ [.read a v] }

/-! ## Logic, arithmetic, compare -/

/-- 42_logic_arith.md R160 to R163. The opcode bytes, lengths, base counts and page penalties are the spec's
reference table (R105, R107, its own decisions D12 and D13; log 6). -/
def Obligations.LogicalInstructionsCombineIntoA : Prop :=
  FormsAre .and
    [(0x29#8, ⟨.and, .immediate, 2, 2, false⟩), (0x25#8, ⟨.and, .zeroPage, 2, 3, false⟩),
     (0x35#8, ⟨.and, .zeroPageX, 2, 4, false⟩), (0x2D#8, ⟨.and, .absolute, 3, 4, false⟩),
     (0x3D#8, ⟨.and, .absoluteX, 3, 4, true⟩), (0x39#8, ⟨.and, .absoluteY, 3, 4, true⟩),
     (0x21#8, ⟨.and, .indirectX, 2, 6, false⟩), (0x31#8, ⟨.and, .indirectY, 2, 5, true⟩)] ∧
  FormsAre .eor
    [(0x49#8, ⟨.eor, .immediate, 2, 2, false⟩), (0x45#8, ⟨.eor, .zeroPage, 2, 3, false⟩),
     (0x55#8, ⟨.eor, .zeroPageX, 2, 4, false⟩), (0x4D#8, ⟨.eor, .absolute, 3, 4, false⟩),
     (0x5D#8, ⟨.eor, .absoluteX, 3, 4, true⟩), (0x59#8, ⟨.eor, .absoluteY, 3, 4, true⟩),
     (0x41#8, ⟨.eor, .indirectX, 2, 6, false⟩), (0x51#8, ⟨.eor, .indirectY, 2, 5, true⟩)] ∧
  FormsAre .ora
    [(0x09#8, ⟨.ora, .immediate, 2, 2, false⟩), (0x05#8, ⟨.ora, .zeroPage, 2, 3, false⟩),
     (0x15#8, ⟨.ora, .zeroPageX, 2, 4, false⟩), (0x0D#8, ⟨.ora, .absolute, 3, 4, false⟩),
     (0x1D#8, ⟨.ora, .absoluteX, 3, 4, true⟩), (0x19#8, ⟨.ora, .absoluteY, 3, 4, true⟩),
     (0x01#8, ⟨.ora, .indirectX, 2, 6, false⟩), (0x11#8, ⟨.ora, .indirectY, 2, 5, true⟩)] ∧
  ∀ i : Instr, i.mnemonic = .and ∨ i.mnemonic = .eor ∨ i.mnemonic = .ora →
    ∃ src, sourceOf i.operand = some src ∧
    ∀ s : State, ∃ t, exec i s = .next t ∧
      (∀ k, k < 8 → t.a.getLsbD k =
        if i.mnemonic = .and then (s.a.getLsbD k && (src.read s).1.getLsbD k)
        else if i.mnemonic = .eor then xor (s.a.getLsbD k) ((src.read s).1.getLsbD k)
        else (s.a.getLsbD k || (src.read s).1.getLsbD k)) ∧
      FlagsBecome s t (zn t.a) ∧
      t = { s with
        a := t.a, p := t.p
        deviceState := (src.read s).2.deviceState, accesses := (src.read s).2.accesses }

/-- 42_logic_arith.md R164. -/
def Obligations.BitTestsWithoutStoring : Prop :=
  FormsAre .bit
    [(0x24#8, ⟨.bit, .zeroPage, 2, 3, false⟩), (0x2C#8, ⟨.bit, .absolute, 3, 4, false⟩)] ∧
  ∀ i : Instr, i.mnemonic = .bit → ∃ f, i.operand = .memory f ∧
    ∀ s : State,
      let r := (resolve f s).st.busRead (resolve f s).ea
      let m := r.1
      ∃ t, exec i s = .next t ∧
        FlagsBecome s t [(.z, decide (s.a &&& m = 0#8)), (.v, m.getLsbD 6), (.n, m.getLsbD 7)] ∧
        t = { s with p := t.p, deviceState := r.2.deviceState, accesses := r.2.accesses }

/-- 42_logic_arith.md R165 to R168 (R165 and R166 with M' = M). The opcode bytes, lengths, base counts and page penalties are the spec's
reference table (R105, R107, its own decisions D12 and D13; log 6). -/
def Obligations.AdcAddsWithCarry : Prop :=
  FormsAre .adc
    [(0x69#8, ⟨.adc, .immediate, 2, 2, false⟩), (0x65#8, ⟨.adc, .zeroPage, 2, 3, false⟩),
     (0x75#8, ⟨.adc, .zeroPageX, 2, 4, false⟩), (0x6D#8, ⟨.adc, .absolute, 3, 4, false⟩),
     (0x7D#8, ⟨.adc, .absoluteX, 3, 4, true⟩), (0x79#8, ⟨.adc, .absoluteY, 3, 4, true⟩),
     (0x61#8, ⟨.adc, .indirectX, 2, 6, false⟩), (0x71#8, ⟨.adc, .indirectY, 2, 5, true⟩)] ∧
  ∀ i : Instr, i.mnemonic = .adc → ∃ src, sourceOf i.operand = some src ∧
    ∀ s : State,
      let m := (src.read s).1
      let c := (s.flag .c).toNat
      ∃ t, exec i s = .next t ∧
        t.a.toNat = (s.a.toNat + m.toNat + c) % 256 ∧
        FlagsBecome s t ([(.c, decide (255 < s.a.toNat + m.toNat + c)),
          (.v, decide (s.a.msb = m.msb ∧ t.a.msb ≠ s.a.msb))] ++ zn t.a) ∧
        (t.flag .v = true ↔ s.a.toInt + m.toInt + c < -128 ∨ 127 < s.a.toInt + m.toInt + c) ∧
        t = { s with
        a := t.a, p := t.p
        deviceState := (src.read s).2.deviceState, accesses := (src.read s).2.accesses }

/-- 42_logic_arith.md R165 to R167 with M' = M xor 0xFF, and R169. The opcode bytes, lengths, base counts and page penalties are the spec's
reference table (R105, R107, its own decisions D12 and D13; log 6). -/
def Obligations.SbcSubtractsWithBorrow : Prop :=
  FormsAre .sbc
    [(0xE9#8, ⟨.sbc, .immediate, 2, 2, false⟩), (0xE5#8, ⟨.sbc, .zeroPage, 2, 3, false⟩),
     (0xF5#8, ⟨.sbc, .zeroPageX, 2, 4, false⟩), (0xED#8, ⟨.sbc, .absolute, 3, 4, false⟩),
     (0xFD#8, ⟨.sbc, .absoluteX, 3, 4, true⟩), (0xF9#8, ⟨.sbc, .absoluteY, 3, 4, true⟩),
     (0xE1#8, ⟨.sbc, .indirectX, 2, 6, false⟩), (0xF1#8, ⟨.sbc, .indirectY, 2, 5, true⟩)] ∧
  ∀ i : Instr, i.mnemonic = .sbc → ∃ src, sourceOf i.operand = some src ∧
    ∀ s : State,
      let m := (src.read s).1
      let c := (s.flag .c).toNat
      ∃ t, exec i s = .next t ∧
        t.a.toNat = (s.a.toNat + (255 - m.toNat) + c) % 256 ∧
        FlagsBecome s t ([(.c, decide (m.toNat + (1 - c) ≤ s.a.toNat)),
          (.v, decide (s.a.msb ≠ m.msb ∧ t.a.msb ≠ s.a.msb))] ++ zn t.a) ∧
        (t.flag .v = true ↔
          s.a.toInt - m.toInt - (1 - c) < -128 ∨ 127 < s.a.toInt - m.toInt - (1 - c)) ∧
        t = { s with
        a := t.a, p := t.p
        deviceState := (src.read s).2.deviceState, accesses := (src.read s).2.accesses }

/-- 42_logic_arith.md R170 to R173. The opcode bytes, lengths, base counts and page penalties are the spec's
reference table (R105, R107, its own decisions D12 and D13; log 6). -/
def Obligations.ComparesSetCarryZeroNegative : Prop :=
  FormsAre .cmp
    [(0xC9#8, ⟨.cmp, .immediate, 2, 2, false⟩), (0xC5#8, ⟨.cmp, .zeroPage, 2, 3, false⟩),
     (0xD5#8, ⟨.cmp, .zeroPageX, 2, 4, false⟩), (0xCD#8, ⟨.cmp, .absolute, 3, 4, false⟩),
     (0xDD#8, ⟨.cmp, .absoluteX, 3, 4, true⟩), (0xD9#8, ⟨.cmp, .absoluteY, 3, 4, true⟩),
     (0xC1#8, ⟨.cmp, .indirectX, 2, 6, false⟩), (0xD1#8, ⟨.cmp, .indirectY, 2, 5, true⟩)] ∧
  FormsAre .cpx
    [(0xE0#8, ⟨.cpx, .immediate, 2, 2, false⟩), (0xE4#8, ⟨.cpx, .zeroPage, 2, 3, false⟩),
     (0xEC#8, ⟨.cpx, .absolute, 3, 4, false⟩)] ∧
  FormsAre .cpy
    [(0xC0#8, ⟨.cpy, .immediate, 2, 2, false⟩), (0xC4#8, ⟨.cpy, .zeroPage, 2, 3, false⟩),
     (0xCC#8, ⟨.cpy, .absolute, 3, 4, false⟩)] ∧
  ∀ (i : Instr) (r : Reg), compareRegister i.mnemonic = some r → ∃ src, sourceOf i.operand = some src ∧
    ∀ s : State,
      let m := (src.read s).1.toNat
      let v := (s.reg r).toNat
      ∃ t, exec i s = .next t ∧
        FlagsBecome s t [(.c, decide (m ≤ v)), (.z, decide (v = m)), (.n, decide (128 ≤ (v + 256 - m) % 256))] ∧
        t = { s with
        p := t.p
        deviceState := (src.read s).2.deviceState, accesses := (src.read s).2.accesses }

/-! ## Increment, decrement, shifts -/

/-- 43_incdec_shift.md R180 to R182. The opcode bytes, lengths, base counts and page penalties are the spec's
reference table (R105, R107, its own decisions D12 and D13; log 6). -/
def Obligations.IncAndDecStepAByteOfMemory : Prop :=
  FormsAre .inc
    [(0xE6#8, ⟨.inc, .zeroPage, 2, 5, false⟩), (0xF6#8, ⟨.inc, .zeroPageX, 2, 6, false⟩),
     (0xEE#8, ⟨.inc, .absolute, 3, 6, false⟩), (0xFE#8, ⟨.inc, .absoluteX, 3, 7, false⟩)] ∧
  FormsAre .dec
    [(0xC6#8, ⟨.dec, .zeroPage, 2, 5, false⟩), (0xD6#8, ⟨.dec, .zeroPageX, 2, 6, false⟩),
     (0xCE#8, ⟨.dec, .absolute, 3, 6, false⟩), (0xDE#8, ⟨.dec, .absoluteX, 3, 7, false⟩)] ∧
  ∀ i : Instr, i.mnemonic = .inc ∨ i.mnemonic = .dec → ∃ f, i.operand = .memory f ∧
    ∀ s : State,
      let l := resolve f s
      let o := l.st.peek l.ea
      ∃ (t : State) (r : Byte), exec i s = .next t ∧
        r.toNat = (if i.mnemonic = .inc then (o.toNat + 1) % 256 else (o.toNat + 255) % 256) ∧
        ByteStored s t l.ea r ∧ FlagsBecome s t (zn r) ∧
        t = { s with
          p := t.p, mem := t.mem, deviceState := ((l.st.busRead l.ea).2.busWrite l.ea r).deviceState
          accesses := l.st.accesses ++ [.read l.ea o, .write l.ea r] }

/-- 43_incdec_shift.md R183 to R186. -/
def Obligations.IndexRegistersStepByOne : Prop :=
  FormsAre .inx
    [(0xE8#8, ⟨.inx, .implicit, 1, 2, false⟩)] ∧
  FormsAre .iny
    [(0xC8#8, ⟨.iny, .implicit, 1, 2, false⟩)] ∧
  FormsAre .dex
    [(0xCA#8, ⟨.dex, .implicit, 1, 2, false⟩)] ∧
  FormsAre .dey
    [(0x88#8, ⟨.dey, .implicit, 1, 2, false⟩)] ∧
  ∀ s : State,
    RegisterGets .inx s .x (BitVec.ofNat 8 (s.x.toNat + 1)) ∧
    RegisterGets .iny s .y (BitVec.ofNat 8 (s.y.toNat + 1)) ∧
    RegisterGets .dex s .x (BitVec.ofNat 8 (s.x.toNat + 255)) ∧
    RegisterGets .dey s .y (BitVec.ofNat 8 (s.y.toNat + 255))

/-- 43_incdec_shift.md R187 to R191, Accumulator mode. -/
def Obligations.AccumulatorShiftsByOneBit : Prop :=
  ∀ (i : Instr) (s : State), i = .aslAcc ∨ i = .lsrAcc ∨ i = .rolAcc ∨ i = .rorAcc →
    ∃ (t : State) (c : Bool), exec i s = .next t ∧
      shifted i.mnemonic s.a.toNat (s.flag .c).toNat = some (t.a.toNat, c) ∧
      FlagsBecome s t ((.c, c) :: zn t.a) ∧ t = { s with a := t.a, p := t.p }

/-- 43_incdec_shift.md R187 to R191, memory modes, with the opcodes of both. The opcode bytes, lengths, base counts and page penalties are the spec's
reference table (R105, R107, its own decisions D12 and D13; log 6). -/
def Obligations.MemoryShiftsByOneBit : Prop :=
  FormsAre .asl
    [(0x0A#8, ⟨.asl, .accumulator, 1, 2, false⟩), (0x06#8, ⟨.asl, .zeroPage, 2, 5, false⟩),
     (0x16#8, ⟨.asl, .zeroPageX, 2, 6, false⟩), (0x0E#8, ⟨.asl, .absolute, 3, 6, false⟩),
     (0x1E#8, ⟨.asl, .absoluteX, 3, 7, false⟩)] ∧
  FormsAre .lsr
    [(0x4A#8, ⟨.lsr, .accumulator, 1, 2, false⟩), (0x46#8, ⟨.lsr, .zeroPage, 2, 5, false⟩),
     (0x56#8, ⟨.lsr, .zeroPageX, 2, 6, false⟩), (0x4E#8, ⟨.lsr, .absolute, 3, 6, false⟩),
     (0x5E#8, ⟨.lsr, .absoluteX, 3, 7, false⟩)] ∧
  FormsAre .rol
    [(0x2A#8, ⟨.rol, .accumulator, 1, 2, false⟩), (0x26#8, ⟨.rol, .zeroPage, 2, 5, false⟩),
     (0x36#8, ⟨.rol, .zeroPageX, 2, 6, false⟩), (0x2E#8, ⟨.rol, .absolute, 3, 6, false⟩),
     (0x3E#8, ⟨.rol, .absoluteX, 3, 7, false⟩)] ∧
  FormsAre .ror
    [(0x6A#8, ⟨.ror, .accumulator, 1, 2, false⟩), (0x66#8, ⟨.ror, .zeroPage, 2, 5, false⟩),
     (0x76#8, ⟨.ror, .zeroPageX, 2, 6, false⟩), (0x6E#8, ⟨.ror, .absolute, 3, 6, false⟩),
     (0x7E#8, ⟨.ror, .absoluteX, 3, 7, false⟩)] ∧
  ∀ i : Instr, i.mnemonic = .asl ∨ i.mnemonic = .lsr ∨ i.mnemonic = .rol ∨ i.mnemonic = .ror →
    i.operand = .accumulator ∨ ∃ f, i.operand = .memory f ∧
    ∀ s : State,
      let l := resolve f s
      let o := l.st.peek l.ea
      ∃ (t : State) (r : Byte) (c : Bool), exec i s = .next t ∧
        shifted i.mnemonic o.toNat (s.flag .c).toNat = some (r.toNat, c) ∧
        ByteStored s t l.ea r ∧ FlagsBecome s t ((.c, c) :: zn r) ∧
        t = { s with
          p := t.p, mem := t.mem, deviceState := ((l.st.busRead l.ea).2.busWrite l.ea r).deviceState
          accesses := l.st.accesses ++ [.read l.ea o, .write l.ea r] }

/-! ## Control transfer -/

/-- 44_control.md R200 (and 30_encoding.md R100). -/
def Obligations.JmpGoesToItsTarget : Prop :=
  FormsAre .jmp
    [(0x4C#8, ⟨.jmp, .absolute, 3, 3, false⟩), (0x6C#8, ⟨.jmp, .indirect, 3, 5, false⟩)] ∧
  ∀ (s : State) (a : Addr),
    exec (.jmpAbs a) s = .next { s with pc := some a } ∧
    let lo := s.busRead a
    let hi := lo.2.busRead (BitVec.ofNat 16 (a.toNat / 256 * 256 + (a.toNat + 1) % 256))
    ∃ target : Addr, target.toNat = lo.1.toNat + 256 * hi.1.toNat ∧
      exec (.jmpInd a) s = .next { hi.2 with pc := some target }

/-- 44_control.md R201. -/
def Obligations.JsrPushesTheReturnAddressLessOne : Prop :=
  FormsAre .jsr
    [(0x20#8, ⟨.jsr, .absolute, 3, 6, false⟩)] ∧
  ∀ (s : State) (a pc : Addr), s.pc = some pc →
    let hi := stackAddr s.sp
    let lo := stackAddr (s.sp - 1#8)
    let ret := pc - 1#16
    ∃ t, exec (.jsrAbs a) s = .next t ∧
      (s.mem.wf = true → StackPlain s → t.peek hi = hiByte ret ∧ t.peek lo = loByte ret) ∧
      OthersUnchanged s t [hi, lo] ∧
      t = { (s.busWrite hi (hiByte ret)).busWrite lo (loByte ret) with sp := s.sp - 2#8, pc := some a } ∧
      t.accesses = s.accesses ++ [.write hi (hiByte ret), .write lo (loByte ret)]

/-- 44_control.md R202. -/
def Obligations.RtsGoesOnePastThePulledAddress : Prop :=
  FormsAre .rts
    [(0x60#8, ⟨.rts, .implicit, 1, 6, false⟩)] ∧
  ∀ s : State,
    let lo := s.busRead (stackAddr (s.sp + 1#8))
    let hi := lo.2.busRead (stackAddr (s.sp + 2#8))
    ∃ target : Addr, target.toNat = (lo.1.toNat + 256 * hi.1.toNat + 1) % 65536 ∧
      exec .rts s = .next { hi.2 with sp := s.sp + 2#8, pc := some target }

/-- 44_control.md R203, R205 to R212; 30_encoding.md R99. The extra cycles of R203 are in BranchesCostTwoThreeOrFour.
The opcode bytes, lengths, base counts and page penalties are the spec's
reference table (R105, R107, its own decisions D12 and D13; log 6). -/
def Obligations.BranchesGoToTheirTargetOnTheirCondition : Prop :=
  FormsAre .bcc
    [(0x90#8, ⟨.bcc, .relative, 2, 2, false⟩)] ∧
  FormsAre .bcs
    [(0xB0#8, ⟨.bcs, .relative, 2, 2, false⟩)] ∧
  FormsAre .beq
    [(0xF0#8, ⟨.beq, .relative, 2, 2, false⟩)] ∧
  FormsAre .bne
    [(0xD0#8, ⟨.bne, .relative, 2, 2, false⟩)] ∧
  FormsAre .bmi
    [(0x30#8, ⟨.bmi, .relative, 2, 2, false⟩)] ∧
  FormsAre .bpl
    [(0x10#8, ⟨.bpl, .relative, 2, 2, false⟩)] ∧
  FormsAre .bvc
    [(0x50#8, ⟨.bvc, .relative, 2, 2, false⟩)] ∧
  FormsAre .bvs
    [(0x70#8, ⟨.bvs, .relative, 2, 2, false⟩)] ∧
  ∀ (i : Instr) (f : Flag) (b : Bool), takenWhen i.mnemonic = some (f, b) → ∃ off, i.operand = .relative off ∧
    ∀ (s : State) (pc : Addr), s.pc = some pc →
      ∃ target : Addr, (target.toNat : Int) = (pc.toNat + off.toInt) % 65536 ∧
        exec i s = .next (if s.flag f = b then { s with pc := some target } else s)

/-- 44_control.md R202: RTS undoes exactly one JSR when the stack is balanced. -/
def Obligations.ReturnUndoesACall : Prop :=
  ∀ (s : State) (a pc : Addr), s.mem.wf = true → StackPlain s → s.pc = some pc →
    ∃ t, exec (.jsrAbs a) s = .next t ∧ t.pc = some a ∧
      ∀ w : State, w.params = t.params → w.sp = t.sp →
        (∀ k : Byte, k ∈ [s.sp, s.sp - 1#8] → w.peek (stackAddr k) = t.peek (stackAddr k)) →
        ∃ v, exec .rts w = .next v ∧ v.pc = some pc ∧ v.sp = s.sp ∧ v.mem = w.mem

/-! ## Flags, BRK, RTI, NOP -/

/-- 45_flags_system.md R220 to R227 (the interrupt clauses of R223 and R227 are in CliAndSeiActAtTheNextBoundary). -/
def Obligations.FlagInstructionsWriteOneFlag : Prop :=
  FormsAre .clc
    [(0x18#8, ⟨.clc, .implicit, 1, 2, false⟩)] ∧
  FormsAre .cld
    [(0xD8#8, ⟨.cld, .implicit, 1, 2, false⟩)] ∧
  FormsAre .cli
    [(0x58#8, ⟨.cli, .implicit, 1, 2, false⟩)] ∧
  FormsAre .clv
    [(0xB8#8, ⟨.clv, .implicit, 1, 2, false⟩)] ∧
  FormsAre .sec
    [(0x38#8, ⟨.sec, .implicit, 1, 2, false⟩)] ∧
  FormsAre .sed
    [(0xF8#8, ⟨.sed, .implicit, 1, 2, false⟩)] ∧
  FormsAre .sei
    [(0x78#8, ⟨.sei, .implicit, 1, 2, false⟩)] ∧
  ∀ (i : Instr) (f : Flag) (b : Bool), flagWritten i.mnemonic = some (f, b) →
    ∀ s : State, ∃ t, exec i s = .next t ∧ FlagsBecome s t [(f, b)] ∧ t = { s with p := t.p }

/-- The interrupt clauses of 45_flags_system.md R223 and R227; 60_exceptions.md R243; no delay is the spec's own decision D19
(log 8). -/
def Obligations.CliAndSeiActAtTheNextBoundary : Prop :=
  ∀ (s : State) (pc : Addr), AtFetch s pc →
    (decodesAt s pc .cli →
      ∃ t u, step s = .next t ∧ t.pc = some (pc + 1#16) ∧ FlagsBecome s t [(.i, false)] ∧
        step (t.driveIrqLine true) = .next { u with cycles := some 7 } ∧
        Entered { t with irqLine := true, cycles := none, accesses := [] } u (pc + 1#16) (interruptStatus t.p) 0xFFFE#16) ∧
    (decodesAt s pc .sei →
      ∃ t u, step s = .next t ∧ t.pc = some (pc + 1#16) ∧ FlagsBecome s t [(.i, true)] ∧
        AtFetch (t.driveIrqLine true) (pc + 1#16) ∧
        step t.nmiRequest = .next { u with cycles := some 7 } ∧
        Entered { t with cycles := none, accesses := [] } u (pc + 1#16) (interruptStatus t.p) 0xFFFA#16)

/-- 45_flags_system.md R228; 60_exceptions.md R246; the pushed address is the spec's own decision D9 (log 15). -/
def Obligations.BrkEntersTheIrqBrkVector : Prop :=
  FormsAre .brk
    [(0x00#8, ⟨.brk, .implicit, 1, 7, false⟩)] ∧
  ∀ (s : State) (pc : Addr), s.pc = some pc →
    ∃ t, exec .brk s = .next t ∧ Entered s t (pc + 1#16) (s.p ||| 0x30#8) 0xFFFE#16

/-- 45_flags_system.md R229; that bit 4 is copied is the spec's own decision D4 (log 12). -/
def Obligations.RtiRestoresStatusAndPc : Prop :=
  FormsAre .rti
    [(0x40#8, ⟨.rti, .implicit, 1, 6, false⟩)] ∧
  ∀ s : State,
    let st := s.busRead (stackAddr (s.sp + 1#8))
    let lo := st.2.busRead (stackAddr (s.sp + 2#8))
    let hi := lo.2.busRead (stackAddr (s.sp + 3#8))
    ∃ target : Addr, target.toNat = lo.1.toNat + 256 * hi.1.toNat ∧
      exec .rti s = .next { hi.2 with p := st.1 ||| 0x20#8, sp := s.sp + 3#8, pc := some target }

/-- 45_flags_system.md R230. -/
def Obligations.NopChangesNothing : Prop :=
  FormsAre .nop
    [(0xEA#8, ⟨.nop, .implicit, 1, 2, false⟩)] ∧ ∀ s : State, exec .nop s = .next s

/-- 60_exceptions.md R247 for BRK; it rests on D4 and D9 (log 12, log 15). -/
def Obligations.RtiAfterBrkResumesPastTheSkippedByte : Prop :=
  ∀ (s : State) (pc : Addr), s.mem.wf = true → StackPlain s → s.pc = some pc →
    ∃ t, exec .brk s = .next t ∧
      ∀ w : State, w.params = t.params → w.sp = t.sp →
        (∀ k : Byte, k ∈ [s.sp, s.sp - 1#8, s.sp - 2#8] → w.peek (stackAddr k) = t.peek (stackAddr k)) →
        ∃ v, exec .rti w = .next v ∧ v.pc = some (pc + 1#16) ∧ v.sp = s.sp ∧ v.p = s.p ||| 0x30#8 ∧
          v.a = w.a ∧ v.x = w.x ∧ v.y = w.y ∧ v.mem = w.mem

/-- 60_exceptions.md R247 for interrupts; it rests on D4 and D5 (log 12, log 15). -/
def Obligations.RtiAfterAnInterruptResumesTheInterruptedProgram : Prop :=
  ∀ (s : State) (pc : Addr), s.mem.wf = true → StackPlain s → s.pc = some pc → AtEntry s →
    ∃ t, step s = .next t ∧
      ∀ w : State, w.params = t.params → w.sp = t.sp →
        (∀ k : Byte, k ∈ [s.sp, s.sp - 1#8, s.sp - 2#8] → w.peek (stackAddr k) = t.peek (stackAddr k)) →
        ∃ v, exec .rti w = .next v ∧ v.pc = some pc ∧ v.sp = s.sp ∧ v.p = interruptStatus s.p ∧
          (∀ f, f ≠ .b → v.flag f = s.flag f) ∧ v.a = w.a ∧ v.x = w.x ∧ v.y = w.y ∧ v.mem = w.mem

/-! ## Cycle counts -/

/-- 70_reset_and_hazards.md R281, first item without the branches, for every `BaseCycles` and `PagePenalty` (00_scope.md R8); the
reference counts are the table's (log 6). -/
def Obligations.InstructionsReturnBasePlusPageCrossing : Prop :=
  ∀ (s : State) (pc : Addr) (i : Instr) (e : OpEntry), AtFetch s pc → decodesAt s pc i →
    takenWhen i.mnemonic = none → opTab (s.peek pc) = some e →
    let row := s.params.timing.find? (fun r => r.opcode == s.peek pc)
    let base := (row.map TimingRow.base).getD e.base
    let pen := (row.map TimingRow.pen).getD e.pen
    ∃ t, step s = .next t ∧
      (∀ f, i.operand = .memory f →
        t.cycles = some (base + if pen = true ∧ (resolve f (fetched s pc i)).crossed = true then 1 else 0)) ∧
      ((∀ f, i.operand ≠ .memory f) → t.cycles = some base)

/-- 44_control.md R203, R204; 70_reset_and_hazards.md R281, for every `BaseCycles` and `PagePenalty` (00_scope.md R8); the two pages
compared are the spec's own decision D11, the reference counts the table's (log 6). The summand of `pen` is the model's choice
(log 6): R105 says that branches do not use the mark, and the reference table gives it to none. -/
def Obligations.BranchesCostTwoThreeOrFour : Prop :=
  ∀ (s : State) (pc : Addr) (i : Instr) (f : Flag) (b : Bool) (off : Byte), AtFetch s pc → decodesAt s pc i →
    takenWhen i.mnemonic = some (f, b) → i.operand = .relative off →
    let next := (pc.toNat + 2) % 65536
    let row := s.params.timing.find? (fun r => r.opcode == s.peek pc)
    let base := (row.map TimingRow.base).getD 2
    let pen := (row.map TimingRow.pen).getD false
    ∃ (t : State) (target : Addr), step s = .next t ∧ (target.toNat : Int) = (next + off.toInt) % 65536 ∧
      t.pc = some (if s.flag f = b then target else BitVec.ofNat 16 next) ∧
      let crossed := target.toNat / 256 ≠ next / 256
      t.cycles = some (base + (if pen = true ∧ crossed then 1 else 0)
        + if s.flag f = b then (if crossed then 2 else 1) else 0)

/-! ## Whole-machine rules -/

/-- 10_state.md R22, R23, R34: the "written by" lists. -/
def Obligations.RegistersChangeOnlyByTheirWriters : Prop :=
  ∀ (i : Instr) (s t : State), exec i s = .next t →
    (t.a ≠ s.a → i.mnemonic ∈ [.lda, .pla, .txa, .tya, .and, .eor, .ora, .adc, .sbc] ∨
      (i.mnemonic ∈ [.asl, .lsr, .rol, .ror] ∧ i.mode = .accumulator)) ∧
    (t.x ≠ s.x → i.mnemonic ∈ [.ldx, .tax, .tsx, .inx, .dex]) ∧
    (t.y ≠ s.y → i.mnemonic ∈ [.ldy, .tay, .iny, .dey]) ∧
    (t.sp ≠ s.sp → i.mnemonic ∈ [.txs, .jsr, .rts, .brk, .rti, .pha, .php, .pla, .plp])

/-- 10_state.md R27 to R33: the "written by" lists. -/
def Obligations.FlagsChangeOnlyByTheirWriters : Prop :=
  let setsZN : List Mnemonic := [.lda, .ldx, .ldy, .tax, .tay, .txa, .tya, .tsx, .pla, .and, .eor, .ora, .adc, .sbc,
    .inc, .dec, .inx, .iny, .dex, .dey, .asl, .lsr, .rol, .ror, .bit, .cmp, .cpx, .cpy, .plp, .rti]
  let writers (f : Flag) : List Mnemonic := match f with
    | .c => [.adc, .sbc, .cmp, .cpx, .cpy, .asl, .lsr, .rol, .ror, .clc, .sec, .plp, .rti]
    | .z => setsZN
    | .i => [.sei, .cli, .brk, .plp, .rti]
    | .d => [.sed, .cld, .plp, .rti]
    | .b => [.plp, .rti]
    | .v => [.adc, .sbc, .bit, .clv, .plp, .rti]
    | .n => setsZN
  ∀ (i : Instr) (s t : State) (f : Flag), exec i s = .next t → t.flag f ≠ s.flag f → i.mnemonic ∈ writers f

/-- 20_memory.md R61; 44_control.md R213, which lists every control transfer. -/
def Obligations.MemoryAndPcChangeOnlyByTheirWriters : Prop :=
  ∀ (i : Instr) (s t : State), exec i s = .next t →
    t.params = s.params ∧
    ((t.mem ≠ s.mem ∨ ∃ a : Addr, s.params.isDevice a = false ∧ t.peek a ≠ s.peek a) →
      i.mnemonic ∈ [.sta, .stx, .sty, .pha, .php, .jsr, .brk, .inc, .dec] ∨
      (i.mnemonic ∈ [.asl, .lsr, .rol, .ror] ∧ i.mode ≠ .accumulator)) ∧
    (t.pc ≠ s.pc →
      i.mnemonic ∈ [.jmp, .jsr, .rts, .bcc, .bcs, .beq, .bne, .bmi, .bpl, .bvc, .bvs, .brk, .rti])

/-- 10_state.md R30: the stored P[4] is read by no instruction and reaches memory by no push. -/
def Obligations.TheStoredBreakFlagIsNeverRead : Prop :=
  ∀ s : State, mapState eraseB (step (eraseB s)) = mapState eraseB (step s)

/-- 10_state.md R31; 42_logic_arith.md R167; the pushed byte: 41_transfer_stack.md R149, 45_flags_system.md R228, 60_exceptions.md R245. -/
def Obligations.DecimalModeAffectsNoResult : Prop :=
  (∀ (i : Instr) (s : State), cycleCount i (eraseD s) = cycleCount i s ∧
    (i.mnemonic ≠ .php → i.mnemonic ≠ .brk → mapState eraseD (exec i (eraseD s)) = mapState eraseD (exec i s))) ∧
  (∀ s : State, ∃ t t', exec .php s = .next t ∧ exec .php (eraseD s) = .next t' ∧
    OnlyThePushedDDiffers s t t' (stackAddr s.sp)) ∧
  (∀ (s : State) (pc : Addr), s.pc = some pc →
    let slot := stackAddr (s.sp - 2#8)
    let alike (ret : Addr) (status : Byte) (vector : Addr) : Prop :=
      vectorAfter s ret (status &&& 0xF7#8) vector = vectorAfter s ret status vector
    (alike (pc + 1#16) (s.p ||| 0x30#8) 0xFFFE#16 →
      ∃ t t', exec .brk s = .next t ∧ exec .brk (eraseD s) = .next t' ∧ OnlyThePushedDDiffers s t t' slot) ∧
    (AtEntry s → alike pc (interruptStatus s.p) (if s.nmiPending = true then 0xFFFA#16 else 0xFFFE#16) →
      ∃ t t', step s = .next t ∧ step (eraseD s) = .next t' ∧ OnlyThePushedDDiffers s t t' slot)) ∧
  ∀ (s : State) (ret vector : Addr) (status status' : Byte), (∀ v ∈ [vector, vector + 1#16], Apart s (stackAddr (s.sp - 2#8)) v) →
    vectorAfter s ret status' vector = vectorAfter s ret status vector

/-- 20_memory.md R61, R62: a step performs exactly the accesses its list names and reads nothing else; 00_scope.md R8 (a) and D1: the core
runs over every `Bus`, a free pair of functions; 70_reset_and_hazards.md R283: and whatever the counts are. -/
def Obligations.AStepDependsOnlyOnTheBytesItReads : Prop :=
  ∀ s : State,
    (∀ t, step s = .next t →
      s.params.bus.run t.accesses s.busState = some t.busState ∧
      ∀ (p : Params) (c c' : Memory × Nat), p.bus.run t.accesses c = some c' →
        ∃ k, step (s.onBus p c) = .next ((t.onBus p c').withCycles k) ∧ (p.timing = s.params.timing → k = t.cycles)) ∧
    ∀ (σ : Type) (B : Bus σ) (b : σ), s.pc ≠ none →
      ∃ (l : List Access) (b' : σ) (t : State), B.run l b = some b' ∧ t.accesses = l ∧
        (∀ (p : Params) (c c' : Memory × Nat), p.bus.run l c = some c' →
          (∃ k, step (s.onBus p c) = .next ((t.onBus p c').withCycles k)) ∨
          ∃ op, step (s.onBus p c) = .fault (.unsupportedOpcode op (t.onBus p c'))) ∧
        ∀ m : Memory, (Params.script l s.params.timing).bus.run l (m, 0) = some (m, l.length)

/-! ## The bus -/

/-- 20_memory.md R52, with its reference instance; the map (log 1) and the rows of devices (log 16) are the model's choice. -/
def Obligations.TheBusAnswersAsItsParameterSays : Prop :=
  ∀ (s : State) (a : Addr) (v : Byte),
    let p := s.params
    ((s.busRead a).1, (s.busRead a).2.busState) = p.bus.read s.busState a ∧ (s.busWrite a v).busState = p.bus.write s.busState a v ∧
    s.busRead a = (s.peek a, { s with
      accesses := s.accesses ++ [.read a (s.peek a)]
      deviceState := if p.isDevice a then (p.deviceRead s.deviceState (p.cell a)).2 else s.deviceState }) ∧
    OthersUnchanged s (s.busRead a).2 [] ∧
    ByteStored s (s.busWrite a v) a v ∧
    s.busWrite a v = { s with
      mem := (s.busWrite a v).mem, accesses := s.accesses ++ [.write a v]
      deviceState := if p.isDevice a then p.deviceWrite s.deviceState (p.cell a) v else s.deviceState } ∧
    (p.busMap = [] → p.isRam a = true ∧ p.isDevice a = false ∧ p.cell a = a ∧ s.peek a = s.mem.read a.toNat) ∧
    (∀ (before after : List Region) (r : Region), p.busMap = before ++ r :: after →
      (∀ q ∈ before, q.holds a = false) → r.first.toNat ≤ a.toNat → a.toNat ≤ r.last.toNat →
      (r.kind = .rom → p.isRam a = false ∧ s.peek a = s.mem.read a.toNat) ∧
      (r.kind = .device → p.isRam a = false ∧ p.isDevice a = true ∧ p.cell a = a) ∧
      ∀ (base : Addr) (size : Nat), r.kind = .mirror base size →
        let c : Addr := BitVec.ofNat 16 (base.toNat + (a.toNat - r.first.toNat) % size)
        p.cell a = c ∧ (p.cell c = c → s.peek a = s.peek c ∧ p.isRam a = p.isRam c ∧ p.isDevice a = p.isDevice c ∧
          (s.busWrite a v).busState = (s.busWrite c v).busState)) ∧
    ∀ (before after : List DeviceRow) (r : DeviceRow), p.isDevice a = true → r.state = s.deviceState → r.addr = p.cell a →
      (p.deviceReads = before ++ r :: after → (∀ q ∈ before, q.state ≠ r.state ∨ q.addr ≠ r.addr) →
        s.peek a = r.byte ∧ (s.busRead a).2.deviceState = r.next) ∧
      (p.deviceWrites = before ++ r :: after → (∀ q ∈ before, q.state ≠ r.state ∨ q.addr ≠ r.addr ∨ q.byte ≠ r.byte) →
        r.byte = v → (s.busWrite a v).deviceState = r.next)
end

