-- ==== Sys2Proof/Laws/State.lean ====
section
/-! SUPPORT. One lemma per field per update of State, so that no proof unfolds a record update. -/

namespace Sys2Proof.Machine

set_option Elab.async false

@[simp] theorem State.withA_a (s : State) (v : Byte) : (s.withA v).a = v := rfl
@[simp] theorem State.withA_x (s : State) (v : Byte) : (s.withA v).x = s.x := rfl
@[simp] theorem State.withA_y (s : State) (v : Byte) : (s.withA v).y = s.y := rfl
@[simp] theorem State.withA_sp (s : State) (v : Byte) : (s.withA v).sp = s.sp := rfl
@[simp] theorem State.withA_pc (s : State) (v : Byte) : (s.withA v).pc = s.pc := rfl
@[simp] theorem State.withA_p (s : State) (v : Byte) : (s.withA v).p = s.p := rfl
@[simp] theorem State.withA_nmiPending (s : State) (v : Byte) : (s.withA v).nmiPending = s.nmiPending := rfl
@[simp] theorem State.withA_irqLine (s : State) (v : Byte) : (s.withA v).irqLine = s.irqLine := rfl
@[simp] theorem State.withA_params (s : State) (v : Byte) : (s.withA v).params = s.params := rfl
@[simp] theorem State.withA_mem (s : State) (v : Byte) : (s.withA v).mem = s.mem := rfl
@[simp] theorem State.withA_deviceState (s : State) (v : Byte) : (s.withA v).deviceState = s.deviceState := rfl
@[simp] theorem State.withA_cycles (s : State) (v : Byte) : (s.withA v).cycles = s.cycles := rfl
@[simp] theorem State.withA_accesses (s : State) (v : Byte) : (s.withA v).accesses = s.accesses := rfl
@[simp] theorem State.withX_a (s : State) (v : Byte) : (s.withX v).a = s.a := rfl
@[simp] theorem State.withX_x (s : State) (v : Byte) : (s.withX v).x = v := rfl
@[simp] theorem State.withX_y (s : State) (v : Byte) : (s.withX v).y = s.y := rfl
@[simp] theorem State.withX_sp (s : State) (v : Byte) : (s.withX v).sp = s.sp := rfl
@[simp] theorem State.withX_pc (s : State) (v : Byte) : (s.withX v).pc = s.pc := rfl
@[simp] theorem State.withX_p (s : State) (v : Byte) : (s.withX v).p = s.p := rfl
@[simp] theorem State.withX_nmiPending (s : State) (v : Byte) : (s.withX v).nmiPending = s.nmiPending := rfl
@[simp] theorem State.withX_irqLine (s : State) (v : Byte) : (s.withX v).irqLine = s.irqLine := rfl
@[simp] theorem State.withX_params (s : State) (v : Byte) : (s.withX v).params = s.params := rfl
@[simp] theorem State.withX_mem (s : State) (v : Byte) : (s.withX v).mem = s.mem := rfl
@[simp] theorem State.withX_deviceState (s : State) (v : Byte) : (s.withX v).deviceState = s.deviceState := rfl
@[simp] theorem State.withX_cycles (s : State) (v : Byte) : (s.withX v).cycles = s.cycles := rfl
@[simp] theorem State.withX_accesses (s : State) (v : Byte) : (s.withX v).accesses = s.accesses := rfl
@[simp] theorem State.withY_a (s : State) (v : Byte) : (s.withY v).a = s.a := rfl
@[simp] theorem State.withY_x (s : State) (v : Byte) : (s.withY v).x = s.x := rfl
@[simp] theorem State.withY_y (s : State) (v : Byte) : (s.withY v).y = v := rfl
@[simp] theorem State.withY_sp (s : State) (v : Byte) : (s.withY v).sp = s.sp := rfl
@[simp] theorem State.withY_pc (s : State) (v : Byte) : (s.withY v).pc = s.pc := rfl
@[simp] theorem State.withY_p (s : State) (v : Byte) : (s.withY v).p = s.p := rfl
@[simp] theorem State.withY_nmiPending (s : State) (v : Byte) : (s.withY v).nmiPending = s.nmiPending := rfl
@[simp] theorem State.withY_irqLine (s : State) (v : Byte) : (s.withY v).irqLine = s.irqLine := rfl
@[simp] theorem State.withY_params (s : State) (v : Byte) : (s.withY v).params = s.params := rfl
@[simp] theorem State.withY_mem (s : State) (v : Byte) : (s.withY v).mem = s.mem := rfl
@[simp] theorem State.withY_deviceState (s : State) (v : Byte) : (s.withY v).deviceState = s.deviceState := rfl
@[simp] theorem State.withY_cycles (s : State) (v : Byte) : (s.withY v).cycles = s.cycles := rfl
@[simp] theorem State.withY_accesses (s : State) (v : Byte) : (s.withY v).accesses = s.accesses := rfl
@[simp] theorem State.withSp_a (s : State) (v : Byte) : (s.withSp v).a = s.a := rfl
@[simp] theorem State.withSp_x (s : State) (v : Byte) : (s.withSp v).x = s.x := rfl
@[simp] theorem State.withSp_y (s : State) (v : Byte) : (s.withSp v).y = s.y := rfl
@[simp] theorem State.withSp_sp (s : State) (v : Byte) : (s.withSp v).sp = v := rfl
@[simp] theorem State.withSp_pc (s : State) (v : Byte) : (s.withSp v).pc = s.pc := rfl
@[simp] theorem State.withSp_p (s : State) (v : Byte) : (s.withSp v).p = s.p := rfl
@[simp] theorem State.withSp_nmiPending (s : State) (v : Byte) : (s.withSp v).nmiPending = s.nmiPending := rfl
@[simp] theorem State.withSp_irqLine (s : State) (v : Byte) : (s.withSp v).irqLine = s.irqLine := rfl
@[simp] theorem State.withSp_params (s : State) (v : Byte) : (s.withSp v).params = s.params := rfl
@[simp] theorem State.withSp_mem (s : State) (v : Byte) : (s.withSp v).mem = s.mem := rfl
@[simp] theorem State.withSp_deviceState (s : State) (v : Byte) : (s.withSp v).deviceState = s.deviceState := rfl
@[simp] theorem State.withSp_cycles (s : State) (v : Byte) : (s.withSp v).cycles = s.cycles := rfl
@[simp] theorem State.withSp_accesses (s : State) (v : Byte) : (s.withSp v).accesses = s.accesses := rfl
@[simp] theorem State.withPc_a (s : State) (v : Option Addr) : (s.withPc v).a = s.a := rfl
@[simp] theorem State.withPc_x (s : State) (v : Option Addr) : (s.withPc v).x = s.x := rfl
@[simp] theorem State.withPc_y (s : State) (v : Option Addr) : (s.withPc v).y = s.y := rfl
@[simp] theorem State.withPc_sp (s : State) (v : Option Addr) : (s.withPc v).sp = s.sp := rfl
@[simp] theorem State.withPc_pc (s : State) (v : Option Addr) : (s.withPc v).pc = v := rfl
@[simp] theorem State.withPc_p (s : State) (v : Option Addr) : (s.withPc v).p = s.p := rfl
@[simp] theorem State.withPc_nmiPending (s : State) (v : Option Addr) : (s.withPc v).nmiPending = s.nmiPending := rfl
@[simp] theorem State.withPc_irqLine (s : State) (v : Option Addr) : (s.withPc v).irqLine = s.irqLine := rfl
@[simp] theorem State.withPc_params (s : State) (v : Option Addr) : (s.withPc v).params = s.params := rfl
@[simp] theorem State.withPc_mem (s : State) (v : Option Addr) : (s.withPc v).mem = s.mem := rfl
@[simp] theorem State.withPc_deviceState (s : State) (v : Option Addr) : (s.withPc v).deviceState = s.deviceState := rfl
@[simp] theorem State.withPc_cycles (s : State) (v : Option Addr) : (s.withPc v).cycles = s.cycles := rfl
@[simp] theorem State.withPc_accesses (s : State) (v : Option Addr) : (s.withPc v).accesses = s.accesses := rfl
@[simp] theorem State.withP_a (s : State) (v : Byte) : (s.withP v).a = s.a := rfl
@[simp] theorem State.withP_x (s : State) (v : Byte) : (s.withP v).x = s.x := rfl
@[simp] theorem State.withP_y (s : State) (v : Byte) : (s.withP v).y = s.y := rfl
@[simp] theorem State.withP_sp (s : State) (v : Byte) : (s.withP v).sp = s.sp := rfl
@[simp] theorem State.withP_pc (s : State) (v : Byte) : (s.withP v).pc = s.pc := rfl
@[simp] theorem State.withP_p (s : State) (v : Byte) : (s.withP v).p = v := rfl
@[simp] theorem State.withP_nmiPending (s : State) (v : Byte) : (s.withP v).nmiPending = s.nmiPending := rfl
@[simp] theorem State.withP_irqLine (s : State) (v : Byte) : (s.withP v).irqLine = s.irqLine := rfl
@[simp] theorem State.withP_params (s : State) (v : Byte) : (s.withP v).params = s.params := rfl
@[simp] theorem State.withP_mem (s : State) (v : Byte) : (s.withP v).mem = s.mem := rfl
@[simp] theorem State.withP_deviceState (s : State) (v : Byte) : (s.withP v).deviceState = s.deviceState := rfl
@[simp] theorem State.withP_cycles (s : State) (v : Byte) : (s.withP v).cycles = s.cycles := rfl
@[simp] theorem State.withP_accesses (s : State) (v : Byte) : (s.withP v).accesses = s.accesses := rfl
@[simp] theorem State.withNmiPending_a (s : State) (v : Bool) : (s.withNmiPending v).a = s.a := rfl
@[simp] theorem State.withNmiPending_x (s : State) (v : Bool) : (s.withNmiPending v).x = s.x := rfl
@[simp] theorem State.withNmiPending_y (s : State) (v : Bool) : (s.withNmiPending v).y = s.y := rfl
@[simp] theorem State.withNmiPending_sp (s : State) (v : Bool) : (s.withNmiPending v).sp = s.sp := rfl
@[simp] theorem State.withNmiPending_pc (s : State) (v : Bool) : (s.withNmiPending v).pc = s.pc := rfl
@[simp] theorem State.withNmiPending_p (s : State) (v : Bool) : (s.withNmiPending v).p = s.p := rfl
@[simp] theorem State.withNmiPending_nmiPending (s : State) (v : Bool) : (s.withNmiPending v).nmiPending = v := rfl
@[simp] theorem State.withNmiPending_irqLine (s : State) (v : Bool) : (s.withNmiPending v).irqLine = s.irqLine := rfl
@[simp] theorem State.withNmiPending_params (s : State) (v : Bool) : (s.withNmiPending v).params = s.params := rfl
@[simp] theorem State.withNmiPending_mem (s : State) (v : Bool) : (s.withNmiPending v).mem = s.mem := rfl
@[simp] theorem State.withNmiPending_deviceState (s : State) (v : Bool) : (s.withNmiPending v).deviceState = s.deviceState := rfl
@[simp] theorem State.withNmiPending_cycles (s : State) (v : Bool) : (s.withNmiPending v).cycles = s.cycles := rfl
@[simp] theorem State.withNmiPending_accesses (s : State) (v : Bool) : (s.withNmiPending v).accesses = s.accesses := rfl
@[simp] theorem State.withIrqLine_a (s : State) (v : Bool) : (s.withIrqLine v).a = s.a := rfl
@[simp] theorem State.withIrqLine_x (s : State) (v : Bool) : (s.withIrqLine v).x = s.x := rfl
@[simp] theorem State.withIrqLine_y (s : State) (v : Bool) : (s.withIrqLine v).y = s.y := rfl
@[simp] theorem State.withIrqLine_sp (s : State) (v : Bool) : (s.withIrqLine v).sp = s.sp := rfl
@[simp] theorem State.withIrqLine_pc (s : State) (v : Bool) : (s.withIrqLine v).pc = s.pc := rfl
@[simp] theorem State.withIrqLine_p (s : State) (v : Bool) : (s.withIrqLine v).p = s.p := rfl
@[simp] theorem State.withIrqLine_nmiPending (s : State) (v : Bool) : (s.withIrqLine v).nmiPending = s.nmiPending := rfl
@[simp] theorem State.withIrqLine_irqLine (s : State) (v : Bool) : (s.withIrqLine v).irqLine = v := rfl
@[simp] theorem State.withIrqLine_params (s : State) (v : Bool) : (s.withIrqLine v).params = s.params := rfl
@[simp] theorem State.withIrqLine_mem (s : State) (v : Bool) : (s.withIrqLine v).mem = s.mem := rfl
@[simp] theorem State.withIrqLine_deviceState (s : State) (v : Bool) : (s.withIrqLine v).deviceState = s.deviceState := rfl
@[simp] theorem State.withIrqLine_cycles (s : State) (v : Bool) : (s.withIrqLine v).cycles = s.cycles := rfl
@[simp] theorem State.withIrqLine_accesses (s : State) (v : Bool) : (s.withIrqLine v).accesses = s.accesses := rfl
@[simp] theorem State.withParams_a (s : State) (v : Params) : (s.withParams v).a = s.a := rfl
@[simp] theorem State.withParams_x (s : State) (v : Params) : (s.withParams v).x = s.x := rfl
@[simp] theorem State.withParams_y (s : State) (v : Params) : (s.withParams v).y = s.y := rfl
@[simp] theorem State.withParams_sp (s : State) (v : Params) : (s.withParams v).sp = s.sp := rfl
@[simp] theorem State.withParams_pc (s : State) (v : Params) : (s.withParams v).pc = s.pc := rfl
@[simp] theorem State.withParams_p (s : State) (v : Params) : (s.withParams v).p = s.p := rfl
@[simp] theorem State.withParams_nmiPending (s : State) (v : Params) : (s.withParams v).nmiPending = s.nmiPending := rfl
@[simp] theorem State.withParams_irqLine (s : State) (v : Params) : (s.withParams v).irqLine = s.irqLine := rfl
@[simp] theorem State.withParams_params (s : State) (v : Params) : (s.withParams v).params = v := rfl
@[simp] theorem State.withParams_mem (s : State) (v : Params) : (s.withParams v).mem = s.mem := rfl
@[simp] theorem State.withParams_deviceState (s : State) (v : Params) : (s.withParams v).deviceState = s.deviceState := rfl
@[simp] theorem State.withParams_cycles (s : State) (v : Params) : (s.withParams v).cycles = s.cycles := rfl
@[simp] theorem State.withParams_accesses (s : State) (v : Params) : (s.withParams v).accesses = s.accesses := rfl
@[simp] theorem State.withMem_a (s : State) (v : Memory) : (s.withMem v).a = s.a := rfl
@[simp] theorem State.withMem_x (s : State) (v : Memory) : (s.withMem v).x = s.x := rfl
@[simp] theorem State.withMem_y (s : State) (v : Memory) : (s.withMem v).y = s.y := rfl
@[simp] theorem State.withMem_sp (s : State) (v : Memory) : (s.withMem v).sp = s.sp := rfl
@[simp] theorem State.withMem_pc (s : State) (v : Memory) : (s.withMem v).pc = s.pc := rfl
@[simp] theorem State.withMem_p (s : State) (v : Memory) : (s.withMem v).p = s.p := rfl
@[simp] theorem State.withMem_nmiPending (s : State) (v : Memory) : (s.withMem v).nmiPending = s.nmiPending := rfl
@[simp] theorem State.withMem_irqLine (s : State) (v : Memory) : (s.withMem v).irqLine = s.irqLine := rfl
@[simp] theorem State.withMem_params (s : State) (v : Memory) : (s.withMem v).params = s.params := rfl
@[simp] theorem State.withMem_mem (s : State) (v : Memory) : (s.withMem v).mem = v := rfl
@[simp] theorem State.withMem_deviceState (s : State) (v : Memory) : (s.withMem v).deviceState = s.deviceState := rfl
@[simp] theorem State.withMem_cycles (s : State) (v : Memory) : (s.withMem v).cycles = s.cycles := rfl
@[simp] theorem State.withMem_accesses (s : State) (v : Memory) : (s.withMem v).accesses = s.accesses := rfl
@[simp] theorem State.withDeviceState_a (s : State) (v : Nat) : (s.withDeviceState v).a = s.a := rfl
@[simp] theorem State.withDeviceState_x (s : State) (v : Nat) : (s.withDeviceState v).x = s.x := rfl
@[simp] theorem State.withDeviceState_y (s : State) (v : Nat) : (s.withDeviceState v).y = s.y := rfl
@[simp] theorem State.withDeviceState_sp (s : State) (v : Nat) : (s.withDeviceState v).sp = s.sp := rfl
@[simp] theorem State.withDeviceState_pc (s : State) (v : Nat) : (s.withDeviceState v).pc = s.pc := rfl
@[simp] theorem State.withDeviceState_p (s : State) (v : Nat) : (s.withDeviceState v).p = s.p := rfl
@[simp] theorem State.withDeviceState_nmiPending (s : State) (v : Nat) : (s.withDeviceState v).nmiPending = s.nmiPending := rfl
@[simp] theorem State.withDeviceState_irqLine (s : State) (v : Nat) : (s.withDeviceState v).irqLine = s.irqLine := rfl
@[simp] theorem State.withDeviceState_params (s : State) (v : Nat) : (s.withDeviceState v).params = s.params := rfl
@[simp] theorem State.withDeviceState_mem (s : State) (v : Nat) : (s.withDeviceState v).mem = s.mem := rfl
@[simp] theorem State.withDeviceState_deviceState (s : State) (v : Nat) : (s.withDeviceState v).deviceState = v := rfl
@[simp] theorem State.withDeviceState_cycles (s : State) (v : Nat) : (s.withDeviceState v).cycles = s.cycles := rfl
@[simp] theorem State.withDeviceState_accesses (s : State) (v : Nat) : (s.withDeviceState v).accesses = s.accesses := rfl
@[simp] theorem State.withCycles_a (s : State) (v : Option Nat) : (s.withCycles v).a = s.a := rfl
@[simp] theorem State.withCycles_x (s : State) (v : Option Nat) : (s.withCycles v).x = s.x := rfl
@[simp] theorem State.withCycles_y (s : State) (v : Option Nat) : (s.withCycles v).y = s.y := rfl
@[simp] theorem State.withCycles_sp (s : State) (v : Option Nat) : (s.withCycles v).sp = s.sp := rfl
@[simp] theorem State.withCycles_pc (s : State) (v : Option Nat) : (s.withCycles v).pc = s.pc := rfl
@[simp] theorem State.withCycles_p (s : State) (v : Option Nat) : (s.withCycles v).p = s.p := rfl
@[simp] theorem State.withCycles_nmiPending (s : State) (v : Option Nat) : (s.withCycles v).nmiPending = s.nmiPending := rfl
@[simp] theorem State.withCycles_irqLine (s : State) (v : Option Nat) : (s.withCycles v).irqLine = s.irqLine := rfl
@[simp] theorem State.withCycles_params (s : State) (v : Option Nat) : (s.withCycles v).params = s.params := rfl
@[simp] theorem State.withCycles_mem (s : State) (v : Option Nat) : (s.withCycles v).mem = s.mem := rfl
@[simp] theorem State.withCycles_deviceState (s : State) (v : Option Nat) : (s.withCycles v).deviceState = s.deviceState := rfl
@[simp] theorem State.withCycles_cycles (s : State) (v : Option Nat) : (s.withCycles v).cycles = v := rfl
@[simp] theorem State.withCycles_accesses (s : State) (v : Option Nat) : (s.withCycles v).accesses = s.accesses := rfl
@[simp] theorem State.withAccesses_a (s : State) (v : List Access) : (s.withAccesses v).a = s.a := rfl
@[simp] theorem State.withAccesses_x (s : State) (v : List Access) : (s.withAccesses v).x = s.x := rfl
@[simp] theorem State.withAccesses_y (s : State) (v : List Access) : (s.withAccesses v).y = s.y := rfl
@[simp] theorem State.withAccesses_sp (s : State) (v : List Access) : (s.withAccesses v).sp = s.sp := rfl
@[simp] theorem State.withAccesses_pc (s : State) (v : List Access) : (s.withAccesses v).pc = s.pc := rfl
@[simp] theorem State.withAccesses_p (s : State) (v : List Access) : (s.withAccesses v).p = s.p := rfl
@[simp] theorem State.withAccesses_nmiPending (s : State) (v : List Access) : (s.withAccesses v).nmiPending = s.nmiPending := rfl
@[simp] theorem State.withAccesses_irqLine (s : State) (v : List Access) : (s.withAccesses v).irqLine = s.irqLine := rfl
@[simp] theorem State.withAccesses_params (s : State) (v : List Access) : (s.withAccesses v).params = s.params := rfl
@[simp] theorem State.withAccesses_mem (s : State) (v : List Access) : (s.withAccesses v).mem = s.mem := rfl
@[simp] theorem State.withAccesses_deviceState (s : State) (v : List Access) : (s.withAccesses v).deviceState = s.deviceState := rfl
@[simp] theorem State.withAccesses_cycles (s : State) (v : List Access) : (s.withAccesses v).cycles = s.cycles := rfl
@[simp] theorem State.withAccesses_accesses (s : State) (v : List Access) : (s.withAccesses v).accesses = v := rfl

end Sys2Proof.Machine
end

