-- ==== Sys2Proof/Laws/Flags.lean ====
section
/-! SUPPORT. What each flag computation does to each bit of a status byte. -/

namespace Sys2Proof.Machine

set_option Elab.async false

theorem Flag.bit_lt (f : Flag) : f.bit < 8 := by cases f <;> decide

theorem Flag.bit_ne_five (f : Flag) : f.bit ≠ 5 := by cases f <;> decide

theorem Flag.bit_inj {f g : Flag} (h : f.bit = g.bit) : f = g := by
  cases f <;> cases g <;> first | rfl | (exact absurd h (by decide))

theorem getLsbD_unusedBit (k : Nat) : unusedBit.getLsbD k = decide (k = 5) := by
  by_cases h : k < 8
  · have : ∀ j : Fin 8, unusedBit.getLsbD j = decide (j.val = 5) := by decide
    exact this ⟨k, h⟩
  · have h5 : k ≠ 5 := by omega
    rw [BitVec.getLsbD_of_ge _ _ (by omega)]
    simp [h5]

/-- `set_bit` writes its bit, forces bit 5, and leaves every other bit (10_state.md R26). -/
theorem getLsbD_setBit (p : Byte) {k : Nat} (hk : k < 8) (b : Bool) (j : Nat) (hj : j < 8) :
    (setBit p k b).getLsbD j = ((if j = k then b else p.getLsbD j) || decide (j = 5)) := by
  unfold setBit
  rw [BitVec.getLsbD_or, getLsbD_unusedBit]
  cases b
  · by_cases h : j = k
    · subst h; simp [hj]
    · by_cases hlt : j < k
      · simp [hlt, h, hj]
      · have : j - k ≠ 0 := by omega
        simp [hlt, h, hj, this]
  · by_cases h : j = k
    · subst h; simp [hj]
    · by_cases hlt : j < k
      · simp [hlt, h]
      · have : j - k ≠ 0 := by omega
        simp [hlt, h, this]

@[simp] theorem getFlag_setFlag (p : Byte) (f g : Flag) (b : Bool) :
    getFlag (setFlag p f b) g = if g = f then b else getFlag p g := by
  unfold getFlag setFlag getBit
  rw [getLsbD_setBit p f.bit_lt b _ g.bit_lt]
  have h5 := g.bit_ne_five
  by_cases h : g = f
  · subst h; simp [h5]
  · have : g.bit ≠ f.bit := fun e => h (Flag.bit_inj e)
    simp [h, this, h5]

@[simp] theorem bit5_setFlag (p : Byte) (f : Flag) (b : Bool) : (setFlag p f b).getLsbD 5 = true := by
  unfold setFlag
  rw [getLsbD_setBit p f.bit_lt b 5 (by decide)]
  simp

@[simp] theorem bit5_setZNBits (p v : Byte) : (setZNBits p v).getLsbD 5 = true := bit5_setFlag _ _ _

@[simp] theorem bit5_compareBits (p r m : Byte) : (compareBits p r m).getLsbD 5 = true := bit5_setFlag _ _ _

@[simp] theorem bit5_bitTestBits (p a m : Byte) : (bitTestBits p a m).getLsbD 5 = true := bit5_setFlag _ _ _

@[simp] theorem bit5_pulledStatus (v : Byte) : (pulledStatus v).getLsbD 5 = true := by
  simp [pulledStatus, getLsbD_unusedBit]

@[simp] theorem getFlag_pulledStatus (v : Byte) (f : Flag) : getFlag (pulledStatus v) f = getFlag v f := by
  have := f.bit_ne_five
  simp [getFlag, getBit, pulledStatus, getLsbD_unusedBit, this]

theorem getFlag_setZNBits (p v : Byte) (g : Flag) :
    getFlag (setZNBits p v) g
      = if g = .n then v.getLsbD 7 else if g = .z then (v == 0x00#8) else getFlag p g := by
  simp [setZNBits]

/-! The flags of a state. -/

@[simp] theorem flag_withP (s : State) (p : Byte) (f : Flag) : (s.withP p).flag f = getFlag p f := rfl
@[simp] theorem flag_withA (s : State) (v : Byte) (f : Flag) : (s.withA v).flag f = s.flag f := rfl
@[simp] theorem flag_withX (s : State) (v : Byte) (f : Flag) : (s.withX v).flag f = s.flag f := rfl
@[simp] theorem flag_withY (s : State) (v : Byte) (f : Flag) : (s.withY v).flag f = s.flag f := rfl
@[simp] theorem flag_withSp (s : State) (v : Byte) (f : Flag) : (s.withSp v).flag f = s.flag f := rfl
@[simp] theorem flag_withPc (s : State) (v : Option Addr) (f : Flag) : (s.withPc v).flag f = s.flag f := rfl
@[simp] theorem flag_withMem (s : State) (v : Memory) (f : Flag) : (s.withMem v).flag f = s.flag f := rfl
@[simp] theorem flag_withDeviceState (s : State) (n : Nat) (f : Flag) : (s.withDeviceState n).flag f = s.flag f := rfl
@[simp] theorem flag_withAccesses (s : State) (l : List Access) (f : Flag) : (s.withAccesses l).flag f = s.flag f := rfl

end Sys2Proof.Machine
end

