-- ==== Sys2Proof/Laws/Memory.lean ====
section
/-! SUPPORT. Memory: reads after writes, and the canonical form, which every memory operation keeps. -/

namespace Sys2Proof.Machine

set_option Elab.async false

@[simp] theorem Memory.read_nil (a : Nat) : Memory.read [] a = Config.unlistedByte := rfl

theorem Memory.wfFrom_cons {lo k : Nat} {v : Byte} {m : Memory} :
    Memory.wfFrom lo ((k, v) :: m) = true
      ↔ lo ≤ k ∧ k < Config.addressSpace ∧ v ≠ Config.unlistedByte ∧ Memory.wfFrom (k + 1) m = true := by
  simp [Memory.wfFrom, and_assoc]

theorem Memory.wfFrom_mono {lo lo' : Nat} {m : Memory} (h : lo' ≤ lo) (w : m.wfFrom lo = true) : m.wfFrom lo' = true := by
  cases m with
  | nil => rfl
  | cons c m =>
    obtain ⟨k, v⟩ := c
    rw [Memory.wfFrom_cons] at w ⊢
    exact ⟨Nat.le_trans h w.1, w.2⟩

/-- An address below every cell is unlisted. -/
theorem Memory.read_of_lt {m : Memory} : ∀ {lo a : Nat}, m.wfFrom lo = true → a < lo → m.read a = Config.unlistedByte := by
  induction m with
  | nil => intros; rfl
  | cons c m ih =>
    intro lo a w h
    obtain ⟨k, v⟩ := c
    rw [Memory.wfFrom_cons] at w
    have hk : k ≠ a := by omega
    simp only [Memory.read, hk, if_false]
    exact ih w.2.2.2 (by omega)

/-- A write leaves every other address alone, whatever the form of the memory. -/
theorem Memory.read_write_of_ne {a b : Nat} (h : b ≠ a) (v : Byte) :
    ∀ m : Memory, (m.write a v).read b = m.read b := by
  intro m
  induction m with
  | nil => simp only [Memory.write]; split <;> simp [Memory.read, Ne.symm h]
  | cons c m ih =>
    obtain ⟨k, w⟩ := c
    simp only [Memory.write]
    split
    · split <;> simp [Memory.read, Ne.symm h]
    · split
      · rename_i hk
        subst hk
        split <;> simp [Memory.read, Ne.symm h]
      · simp [Memory.read, ih]

/-- A read after a write to the same address gives the byte written. -/
theorem Memory.read_write_same {m : Memory} (a : Nat) (v : Byte) :
    ∀ {lo : Nat}, m.wfFrom lo = true → (m.write a v).read a = v := by
  induction m with
  | nil => intro lo _; simp only [Memory.write]; split <;> simp_all [Memory.read]
  | cons c m ih =>
    intro lo w
    obtain ⟨k, b⟩ := c
    have w' := Memory.wfFrom_cons.mp w
    simp only [Memory.write]
    split
    · rename_i hlt
      split
      · rename_i hv
        have hk : k ≠ a := by omega
        simp only [Memory.read, hk, if_false]
        rw [Memory.read_of_lt w'.2.2.2 (by omega), hv]
      · simp [Memory.read]
    · split
      · rename_i hk
        subst hk
        split
        · rename_i hv
          rw [Memory.read_of_lt w'.2.2.2 (by omega), hv]
        · simp [Memory.read]
      · rename_i hk
        simp only [Memory.read, Ne.symm hk, if_false]
        exact ih w'.2.2.2

/-- A write keeps the canonical form. -/
theorem Memory.write_wfFrom {m : Memory} {a : Nat} (ha : a < Config.addressSpace) (v : Byte) :
    ∀ {lo : Nat}, m.wfFrom lo = true → lo ≤ a → (m.write a v).wfFrom lo = true := by
  induction m with
  | nil =>
    intro lo _ h
    simp only [Memory.write]
    split
    · rfl
    · rw [Memory.wfFrom_cons]; exact ⟨h, ha, by assumption, rfl⟩
  | cons c m ih =>
    intro lo w h
    obtain ⟨k, b⟩ := c
    have w' := Memory.wfFrom_cons.mp w
    simp only [Memory.write]
    split
    · split
      · exact w
      · rw [Memory.wfFrom_cons]
        exact ⟨h, ha, by assumption, Memory.wfFrom_cons.mpr ⟨by omega, w'.2⟩⟩
    · split
      · rename_i hk
        subst hk
        split
        · exact Memory.wfFrom_mono (by omega) w'.2.2.2
        · rw [Memory.wfFrom_cons]; exact ⟨h, ha, by assumption, w'.2.2.2⟩
      · rw [Memory.wfFrom_cons]
        exact ⟨w'.1, w'.2.1, w'.2.2.1, ih w'.2.2.2 (by omega)⟩

theorem Memory.write_wf {m : Memory} (w : m.wf = true) (a : Addr) (v : Byte) : (m.write a.toNat v).wf = true :=
  Memory.write_wfFrom (by have := a.isLt; simpa [Config.addressSpace] using this) v w (Nat.zero_le _)

/-- The interface's placing of bytes keeps the canonical form. -/
theorem placeBytes_wf (n : Nat) : ∀ {m : Memory} (_ : m.wf = true) (a : Addr) (w : Nat), (placeBytes m a w n).wf = true := by
  induction n with
  | zero => intro m h a w; exact h
  | succ n ih => intro m h a w; exact ih (Memory.write_wf h a _) _ _

/-- The memory of the reset state is in canonical form. -/
theorem reset_mem_wf : State.reset.mem.wf = true := rfl

/-! ## The bus -/

/-- On RAM a write stores its byte. -/
theorem writeByte_ram {p : Params} {a : Addr} (h : p.isRam a = true) (m : Memory) (v : Byte) :
    p.writeByte m a v = m.write (p.cell a).toNat v := by simp [Params.writeByte, h]

/-- A write elsewhere leaves the bytes the bus keeps alone. -/
theorem writeByte_not_ram {p : Params} {a : Addr} (h : p.isRam a = false) (m : Memory) (v : Byte) :
    p.writeByte m a v = m := by simp [Params.writeByte, h]

theorem isDevice_of_isRam {p : Params} {a : Addr} (h : p.isRam a = true) : p.isDevice a = false := by
  simp [Params.isRam] at h; exact h.2

theorem writeByte_wf {m : Memory} (w : m.wf = true) (p : Params) (a : Addr) (v : Byte) : (p.writeByte m a v).wf = true := by
  unfold Params.writeByte; split
  · exact Memory.write_wf w _ v
  · exact w

/-- A read of RAM gives the byte written there. -/
theorem readByte_writeByte_same {p : Params} {m : Memory} {a : Addr} (w : m.wf = true) (h : p.isRam a = true) (n : Nat) (v : Byte) :
    p.readByte (p.writeByte m a v) n a = v := by
  rw [writeByte_ram h, Params.readByte, isDevice_of_isRam h]
  exact Memory.read_write_same _ v w

theorem toNat_ne_of_ne {a b : Addr} (h : b ≠ a) : b.toNat ≠ a.toNat := fun e => h (BitVec.eq_of_toNat_eq e)

/-- A write leaves every other cell alone. -/
theorem readByte_writeByte_of_ne {p : Params} {a b : Addr} (h : p.cell b ≠ p.cell a) (m : Memory) (n : Nat) (v : Byte) :
    p.readByte (p.writeByte m a v) n b = p.readByte m n b := by
  cases hr : p.isRam a <;> simp [Params.writeByte, Params.readByte, hr, Memory.read_write_of_ne (toNat_ne_of_ne h)]

/-- Only a device looks at the devices' state. -/
theorem readByte_count {p : Params} {b : Addr} (h : p.isDevice b = false) (m : Memory) (n k : Nat) :
    p.readByte m n b = p.readByte m k b := by simp [Params.readByte, h]

/-- A write changes the devices' state on a device only. -/
theorem devicesAfterWrite_of_not_device {p : Params} {a : Addr} (h : p.isDevice a = false) (d : Nat) (v : Byte) :
    p.devicesAfterWrite d a v = d := by simp [Params.devicesAfterWrite, h]

/-- A read changes the devices' state on a device only. -/
theorem devicesAfterRead_of_not_device {p : Params} {a : Addr} (h : p.isDevice a = false) (d : Nat) :
    p.devicesAfterRead d a = d := by simp [Params.devicesAfterRead, h]

/-! The read of one byte of a state looks at the parameters, the bytes the bus keeps and the devices' state. -/

/-- The first row for a state and an address says what a device read does. -/
theorem deviceRead_row {p : Params} {r : DeviceRow} {l k : List DeviceRow} (h : p.deviceReads = l ++ r :: k)
    (hl : ∀ q ∈ l, q.state ≠ r.state ∨ q.addr ≠ r.addr) : p.deviceRead r.state r.addr = (r.byte, r.next) := by
  unfold Params.deviceRead
  rw [h, List.find?_append, List.find?_eq_none.mpr fun q hq hx => by
    simp only [Bool.and_eq_true, beq_iff_eq] at hx
    exact (hl q hq).elim (· hx.1) (· hx.2)]
  simp

/-- The first row for a state, an address and a byte says what a device write does. -/
theorem deviceWrite_row {p : Params} {r : DeviceRow} {l k : List DeviceRow} (h : p.deviceWrites = l ++ r :: k)
    (hl : ∀ q ∈ l, q.state ≠ r.state ∨ q.addr ≠ r.addr ∨ q.byte ≠ r.byte) :
    p.deviceWrite r.state r.addr r.byte = r.next := by
  unfold Params.deviceWrite
  rw [h, List.find?_append, List.find?_eq_none.mpr fun q hq hx => by
    simp only [Bool.and_eq_true, beq_iff_eq] at hx
    exact (hl q hq).elim (· hx.1.1) (·.elim (· hx.1.2) (· hx.2))]
  simp

theorem peek_eq (s : State) (a : Addr) : s.peek a = s.params.readByte s.mem s.deviceState a := rfl

theorem peek_congr {s t : State} (hp : s.params = t.params) (hm : s.mem = t.mem) (hn : s.deviceState = t.deviceState) (a : Addr) :
    s.peek a = t.peek a := by simp [peek_eq, hp, hm, hn]

@[simp] theorem peek_withAccesses (s : State) (l : List Access) (a : Addr) : (s.withAccesses l).peek a = s.peek a := rfl
@[simp] theorem peek_withA (s : State) (v : Byte) (a : Addr) : (s.withA v).peek a = s.peek a := rfl
@[simp] theorem peek_withX (s : State) (v : Byte) (a : Addr) : (s.withX v).peek a = s.peek a := rfl
@[simp] theorem peek_withY (s : State) (v : Byte) (a : Addr) : (s.withY v).peek a = s.peek a := rfl
@[simp] theorem peek_withSp (s : State) (v : Byte) (a : Addr) : (s.withSp v).peek a = s.peek a := rfl
@[simp] theorem peek_withP (s : State) (v : Byte) (a : Addr) : (s.withP v).peek a = s.peek a := rfl
@[simp] theorem peek_withPc (s : State) (v : Option Addr) (a : Addr) : (s.withPc v).peek a = s.peek a := rfl
@[simp] theorem peek_withCycles (s : State) (v : Option Nat) (a : Addr) : (s.withCycles v).peek a = s.peek a := rfl
@[simp] theorem peek_withNmiPending (s : State) (v : Bool) (a : Addr) : (s.withNmiPending v).peek a = s.peek a := rfl
@[simp] theorem peek_withIrqLine (s : State) (v : Bool) (a : Addr) : (s.withIrqLine v).peek a = s.peek a := rfl
@[simp] theorem peek_setReg (s : State) (r : Reg) (v : Byte) (a : Addr) : (s.setReg r v).peek a = s.peek a := by
  cases r <;> rfl

/-- A state whose parameters and memory are those of another reads alike wherever no device answers. -/
theorem peek_of_same {s t : State} (hp : t.params = s.params) (hm : t.mem = s.mem) {b : Addr} (hb : s.params.isDevice b = false) :
    t.peek b = s.peek b := by
  simp [peek_eq, hp, hm, Params.readByte, hb]

/-- A bus write stores its byte in RAM. -/
theorem peek_busWrite_same {s : State} (w : s.mem.wf = true) {a : Addr} (h : s.params.isRam a = true) (v : Byte) :
    (s.busWrite a v).peek a = v := readByte_writeByte_same w h _ v

/-- A bus write leaves every byte of another cell alone. -/
theorem peek_busWrite_of_ne (s : State) {a b : Addr} (hb : s.params.isDevice b = false) (h : s.params.cell b ≠ s.params.cell a)
    (v : Byte) : (s.busWrite a v).peek b = s.peek b :=
  (readByte_count hb _ _ _).trans (readByte_writeByte_of_ne h s.mem s.deviceState v)

theorem busWrite_wf {s : State} (w : s.mem.wf = true) (a : Addr) (v : Byte) : (s.busWrite a v).mem.wf = true :=
  writeByte_wf w s.params a v

theorem externalWrite_wf {s : State} (w : s.mem.wf = true) (a : Addr) (v : Byte) : (s.externalWrite a v).mem.wf = true :=
  writeByte_wf w s.params a v

theorem withFetchWord_wf {s : State} (w : s.mem.wf = true) (nbits v : Nat) : (s.withFetchWord nbits v).mem.wf = true :=
  placeBytes_wf 3 w _ _

/-! The reference bus, flat RAM (20_memory.md R52). -/

@[simp] theorem cell_flat {p : Params} (h : p.busMap = []) (a : Addr) : p.cell a = a := by simp [Params.cell, h]
@[simp] theorem isDevice_flat {p : Params} (h : p.busMap = []) (a : Addr) : p.isDevice a = false := by
  simp [Params.isDevice, Params.backing, h]
@[simp] theorem isRam_flat {p : Params} (h : p.busMap = []) (a : Addr) : p.isRam a = true := by
  simp [Params.isRam, Params.isDevice, Params.backing, h]

end Sys2Proof.Machine
end

