-- ==== Sys2Proof/Laws/Word.lean ====
section
/-! SUPPORT. The byte-order helpers undo each other (00_scope.md R9). -/

namespace Sys2Proof

theorem getLsbD_w16 (l h : Byte) (k : Nat) :
    (w16 l h).getLsbD k = if k < 8 then l.getLsbD k else (decide (k < 16) && h.getLsbD (k - 8)) := by
  unfold w16
  by_cases hk : k < 8
  · have h16 : k < 16 := by omega
    simp [hk, h16]
  · by_cases h16 : k < 16
    · simp [hk, h16, BitVec.getLsbD_of_ge l k (by omega)]
    · simp [hk, h16]

theorem getLsbD_loByte (w : Addr) (k : Nat) : (loByte w).getLsbD k = (decide (k < 8) && w.getLsbD k) := by
  simp [loByte]

theorem getLsbD_hiByte (w : Addr) (k : Nat) : (hiByte w).getLsbD k = (decide (k < 8) && w.getLsbD (8 + k)) := by
  simp [hiByte]

@[simp] theorem w16_loByte_hiByte (w : Addr) : w16 (loByte w) (hiByte w) = w := by
  apply BitVec.eq_of_getLsbD_eq
  intro k hk
  rw [getLsbD_w16, getLsbD_loByte, getLsbD_hiByte]
  by_cases h8 : k < 8
  · simp [h8]
  · have : k - 8 < 8 := by omega
    have e : 8 + (k - 8) = k := by omega
    simp [h8, hk, this, e]

@[simp] theorem loByte_w16 (l h : Byte) : loByte (w16 l h) = l := by
  apply BitVec.eq_of_getLsbD_eq
  intro k hk
  rw [getLsbD_loByte, getLsbD_w16]
  simp [hk]

@[simp] theorem hiByte_w16 (l h : Byte) : hiByte (w16 l h) = h := by
  apply BitVec.eq_of_getLsbD_eq
  intro k hk
  have h1 : ¬ 8 + k < 8 := by omega
  have h2 : 8 + k < 16 := by omega
  rw [getLsbD_hiByte, getLsbD_w16]
  simp [hk, h1, h2]

/-! The byte-order helpers as numbers. -/

theorem w16_toNat (l h : Byte) : (w16 l h).toNat = l.toNat + 256 * h.toNat := by
  have hl := l.isLt
  have hh := h.isLt
  have e := Nat.shiftLeft_add_eq_or_of_lt hl h.toNat
  rw [Nat.shiftLeft_eq] at e
  have es : (h.setWidth 16 <<< 8 : Addr).toNat = h.toNat * 2 ^ 8 := by
    simp [Nat.shiftLeft_eq]; omega
  unfold w16
  rw [BitVec.toNat_or, es, BitVec.toNat_setWidth, Nat.or_comm, Nat.mod_eq_of_lt (by omega), ← e]
  omega

theorem loByte_toNat (a : Addr) : (loByte a).toNat = a.toNat % 256 := by simp [loByte]

theorem hiByte_toNat (a : Addr) : (hiByte a).toNat = a.toNat / 256 := by
  have := a.isLt
  simp [hiByte, Nat.shiftRight_eq_div_pow]; omega

end Sys2Proof
end

