-- ==== Sys2Proof/Laws/Ops.lean ====
section
/-! SUPPORT. One lemma per shared operation that says all it does: each is written as updates of the state it is given. -/

namespace Sys2Proof.Machine

set_option Elab.async false

@[simp] theorem record_eq (s : State) (x : Access) : s.record x = s.withAccesses (s.accesses ++ [x]) := rfl

/-- The core's read is the bus's `read` (00_scope.md R8 (a)). -/
theorem busRead_bus (s : State) (a : Addr) :
    ((s.busRead a).1, (s.busRead a).2.busState) = s.params.bus.read s.busState a := rfl

/-- The core's write is the bus's `write`. -/
theorem busWrite_bus (s : State) (a : Addr) (v : Byte) : (s.busWrite a v).busState = s.params.bus.write s.busState a v := rfl

@[simp] theorem busRead_fst (s : State) (a : Addr) : (s.busRead a).1 = s.peek a := rfl

@[simp] theorem busRead_a (s : State) (a : Addr) : (s.busRead a).2.a = s.a := rfl
@[simp] theorem busRead_x (s : State) (a : Addr) : (s.busRead a).2.x = s.x := rfl
@[simp] theorem busRead_y (s : State) (a : Addr) : (s.busRead a).2.y = s.y := rfl
@[simp] theorem busRead_sp (s : State) (a : Addr) : (s.busRead a).2.sp = s.sp := rfl
@[simp] theorem busRead_pc (s : State) (a : Addr) : (s.busRead a).2.pc = s.pc := rfl
@[simp] theorem busRead_p (s : State) (a : Addr) : (s.busRead a).2.p = s.p := rfl
@[simp] theorem busRead_nmiPending (s : State) (a : Addr) : (s.busRead a).2.nmiPending = s.nmiPending := rfl
@[simp] theorem busRead_irqLine (s : State) (a : Addr) : (s.busRead a).2.irqLine = s.irqLine := rfl
@[simp] theorem busRead_params (s : State) (a : Addr) : (s.busRead a).2.params = s.params := rfl
@[simp] theorem busRead_mem (s : State) (a : Addr) : (s.busRead a).2.mem = s.mem := rfl
@[simp] theorem busRead_deviceState (s : State) (a : Addr) : (s.busRead a).2.deviceState = s.params.devicesAfterRead s.deviceState a := rfl
@[simp] theorem busRead_cycles (s : State) (a : Addr) : (s.busRead a).2.cycles = s.cycles := rfl
@[simp] theorem busRead_accesses (s : State) (a : Addr) : (s.busRead a).2.accesses = s.accesses ++ [.read a (s.peek a)] := rfl

theorem busWrite_eq (s : State) (a : Addr) (v : Byte) :
    s.busWrite a v = ((s.withAccesses (s.accesses ++ [.write a v])).withMem (s.params.writeByte s.mem a v)).withDeviceState
      (s.params.devicesAfterWrite s.deviceState a v) := rfl

@[simp] theorem busWrite_a (s : State) (a : Addr) (v : Byte) : (s.busWrite a v).a = s.a := rfl
@[simp] theorem busWrite_x (s : State) (a : Addr) (v : Byte) : (s.busWrite a v).x = s.x := rfl
@[simp] theorem busWrite_y (s : State) (a : Addr) (v : Byte) : (s.busWrite a v).y = s.y := rfl
@[simp] theorem busWrite_sp (s : State) (a : Addr) (v : Byte) : (s.busWrite a v).sp = s.sp := rfl
@[simp] theorem busWrite_pc (s : State) (a : Addr) (v : Byte) : (s.busWrite a v).pc = s.pc := rfl
@[simp] theorem busWrite_p (s : State) (a : Addr) (v : Byte) : (s.busWrite a v).p = s.p := rfl
@[simp] theorem busWrite_nmiPending (s : State) (a : Addr) (v : Byte) : (s.busWrite a v).nmiPending = s.nmiPending := rfl
@[simp] theorem busWrite_irqLine (s : State) (a : Addr) (v : Byte) : (s.busWrite a v).irqLine = s.irqLine := rfl
@[simp] theorem busWrite_params (s : State) (a : Addr) (v : Byte) : (s.busWrite a v).params = s.params := rfl
@[simp] theorem busWrite_mem (s : State) (a : Addr) (v : Byte) : (s.busWrite a v).mem = s.params.writeByte s.mem a v := rfl
@[simp] theorem busWrite_deviceState (s : State) (a : Addr) (v : Byte) : (s.busWrite a v).deviceState = s.params.devicesAfterWrite s.deviceState a v := rfl
@[simp] theorem busWrite_cycles (s : State) (a : Addr) (v : Byte) : (s.busWrite a v).cycles = s.cycles := rfl
@[simp] theorem busWrite_accesses (s : State) (a : Addr) (v : Byte) : (s.busWrite a v).accesses = s.accesses ++ [.write a v] := rfl

/-- The byte a read at `b` gives after a read at `a`: another one only where a device answers both. -/
def State.peekAfter (s : State) (a b : Addr) : Byte := s.params.readByte s.mem (s.params.devicesAfterRead s.deviceState a) b

@[simp] theorem peek_busRead (s : State) (a b : Addr) : (s.busRead a).2.peek b = s.peekAfter a b := rfl

theorem peekAfter_congr {s t : State} (hp : s.params = t.params) (hm : s.mem = t.mem) (hn : s.deviceState = t.deviceState)
    (a b : Addr) : s.peekAfter a b = t.peekAfter a b := by simp [State.peekAfter, hp, hm, hn]

/-- A read changes what other reads give nowhere but on a device. -/
theorem peekAfter_of_not_device {s : State} {b : Addr} (h : s.params.isDevice b = false) (a : Addr) :
    s.peekAfter a b = s.peek b := readByte_count h _ _ _

@[simp] theorem busReadPair_fst (s : State) (a b : Addr) : (s.busReadPair a b).1 = w16 (s.peek a) (s.peekAfter a b) := rfl

@[simp] theorem busReadPair_a (s : State) (a b : Addr) : (s.busReadPair a b).2.a = s.a := by simp [State.busReadPair]
@[simp] theorem busReadPair_x (s : State) (a b : Addr) : (s.busReadPair a b).2.x = s.x := by simp [State.busReadPair]
@[simp] theorem busReadPair_y (s : State) (a b : Addr) : (s.busReadPair a b).2.y = s.y := by simp [State.busReadPair]
@[simp] theorem busReadPair_sp (s : State) (a b : Addr) : (s.busReadPair a b).2.sp = s.sp := by simp [State.busReadPair]
@[simp] theorem busReadPair_pc (s : State) (a b : Addr) : (s.busReadPair a b).2.pc = s.pc := by simp [State.busReadPair]
@[simp] theorem busReadPair_p (s : State) (a b : Addr) : (s.busReadPair a b).2.p = s.p := by simp [State.busReadPair]
@[simp] theorem busReadPair_nmiPending (s : State) (a b : Addr) : (s.busReadPair a b).2.nmiPending = s.nmiPending := by simp [State.busReadPair]
@[simp] theorem busReadPair_irqLine (s : State) (a b : Addr) : (s.busReadPair a b).2.irqLine = s.irqLine := by simp [State.busReadPair]
@[simp] theorem busReadPair_params (s : State) (a b : Addr) : (s.busReadPair a b).2.params = s.params := by simp [State.busReadPair]
@[simp] theorem busReadPair_mem (s : State) (a b : Addr) : (s.busReadPair a b).2.mem = s.mem := by simp [State.busReadPair]
@[simp] theorem busReadPair_deviceState (s : State) (a b : Addr) : (s.busReadPair a b).2.deviceState = s.params.devicesAfterRead (s.params.devicesAfterRead s.deviceState a) b := by simp [State.busReadPair]
@[simp] theorem busReadPair_cycles (s : State) (a b : Addr) : (s.busReadPair a b).2.cycles = s.cycles := by simp [State.busReadPair]
@[simp] theorem busReadPair_accesses (s : State) (a b : Addr) : (s.busReadPair a b).2.accesses = s.accesses ++ [.read a (s.peek a), .read b (s.peekAfter a b)] := by
  simp [State.busReadPair]

@[simp] theorem busRead16_eq (s : State) (a : Addr) : s.busRead16 a = s.busReadPair a (a + 1#16) := rfl

@[simp] theorem zpRead16_eq (s : State) (z : Byte) : s.zpRead16 z = s.busReadPair (zext16 z) (zext16 (z + 1#8)) := rfl

@[simp] theorem setFlag_eq (s : State) (f : Flag) (b : Bool) : s.setFlag f b = s.withP (setFlag s.p f b) := rfl

@[simp] theorem setZN_eq (s : State) (v : Byte) : s.setZN v = s.withP (setZNBits s.p v) := rfl

theorem result_eq (s : State) (r : Reg) (v : Byte) : s.result r v = (s.setReg r v).withP (setZNBits s.p v) := by
  cases r <;> rfl

@[simp] theorem setReg_reg (s : State) (r : Reg) (v : Byte) : (s.setReg r v).reg r = v := by cases r <;> rfl

theorem setReg_reg_of_ne (s : State) {r q : Reg} (h : q ≠ r) (v : Byte) : (s.setReg r v).reg q = s.reg q := by
  cases r <;> cases q <;> first | rfl | exact absurd rfl h

@[simp] theorem setReg_sp (s : State) (r : Reg) (v : Byte) : (s.setReg r v).sp = s.sp := by cases r <;> rfl
@[simp] theorem setReg_pc (s : State) (r : Reg) (v : Byte) : (s.setReg r v).pc = s.pc := by cases r <;> rfl
@[simp] theorem setReg_p (s : State) (r : Reg) (v : Byte) : (s.setReg r v).p = s.p := by cases r <;> rfl
@[simp] theorem setReg_nmiPending (s : State) (r : Reg) (v : Byte) : (s.setReg r v).nmiPending = s.nmiPending := by cases r <;> rfl
@[simp] theorem setReg_irqLine (s : State) (r : Reg) (v : Byte) : (s.setReg r v).irqLine = s.irqLine := by cases r <;> rfl
@[simp] theorem setReg_params (s : State) (r : Reg) (v : Byte) : (s.setReg r v).params = s.params := by cases r <;> rfl
@[simp] theorem setReg_mem (s : State) (r : Reg) (v : Byte) : (s.setReg r v).mem = s.mem := by cases r <;> rfl
@[simp] theorem setReg_deviceState (s : State) (r : Reg) (v : Byte) : (s.setReg r v).deviceState = s.deviceState := by cases r <;> rfl
@[simp] theorem setReg_cycles (s : State) (r : Reg) (v : Byte) : (s.setReg r v).cycles = s.cycles := by cases r <;> rfl
@[simp] theorem setReg_accesses (s : State) (r : Reg) (v : Byte) : (s.setReg r v).accesses = s.accesses := by cases r <;> rfl

/-! `Push` and `Pull` (20_memory.md R57, R58), field by field. -/

@[simp] theorem push_a (s : State) (v : Byte) : (s.push v).a = s.a := by simp [State.push]
@[simp] theorem push_x (s : State) (v : Byte) : (s.push v).x = s.x := by simp [State.push]
@[simp] theorem push_y (s : State) (v : Byte) : (s.push v).y = s.y := by simp [State.push]
@[simp] theorem push_sp (s : State) (v : Byte) : (s.push v).sp = s.sp - 1#8 := by simp [State.push]
@[simp] theorem push_pc (s : State) (v : Byte) : (s.push v).pc = s.pc := by simp [State.push]
@[simp] theorem push_p (s : State) (v : Byte) : (s.push v).p = s.p := by simp [State.push]
@[simp] theorem push_nmiPending (s : State) (v : Byte) : (s.push v).nmiPending = s.nmiPending := by simp [State.push]
@[simp] theorem push_irqLine (s : State) (v : Byte) : (s.push v).irqLine = s.irqLine := by simp [State.push]
@[simp] theorem push_params (s : State) (v : Byte) : (s.push v).params = s.params := by simp [State.push]
@[simp] theorem push_mem (s : State) (v : Byte) : (s.push v).mem = s.params.writeByte s.mem (stackAddr s.sp) v := by simp [State.push]
@[simp] theorem push_deviceState (s : State) (v : Byte) : (s.push v).deviceState = s.params.devicesAfterWrite s.deviceState (stackAddr s.sp) v := by simp [State.push]
@[simp] theorem push_cycles (s : State) (v : Byte) : (s.push v).cycles = s.cycles := by simp [State.push]
@[simp] theorem push_accesses (s : State) (v : Byte) : (s.push v).accesses = s.accesses ++ [.write (stackAddr s.sp) v] := by simp [State.push]

/-- The byte `Pull` returns. -/
@[simp] theorem pull_fst (s : State) : s.pull.1 = s.peek (stackAddr (s.sp + 1#8)) := rfl

@[simp] theorem pull_a (s : State) : (s.pull.2).a = s.a := by simp [State.pull]
@[simp] theorem pull_x (s : State) : (s.pull.2).x = s.x := by simp [State.pull]
@[simp] theorem pull_y (s : State) : (s.pull.2).y = s.y := by simp [State.pull]
@[simp] theorem pull_sp (s : State) : (s.pull.2).sp = s.sp + 1#8 := by simp [State.pull]
@[simp] theorem pull_pc (s : State) : (s.pull.2).pc = s.pc := by simp [State.pull]
@[simp] theorem pull_p (s : State) : (s.pull.2).p = s.p := by simp [State.pull]
@[simp] theorem pull_nmiPending (s : State) : (s.pull.2).nmiPending = s.nmiPending := by simp [State.pull]
@[simp] theorem pull_irqLine (s : State) : (s.pull.2).irqLine = s.irqLine := by simp [State.pull]
@[simp] theorem pull_params (s : State) : (s.pull.2).params = s.params := by simp [State.pull]
@[simp] theorem pull_mem (s : State) : (s.pull.2).mem = s.mem := by simp [State.pull]
@[simp] theorem pull_deviceState (s : State) : (s.pull.2).deviceState = s.params.devicesAfterRead s.deviceState (stackAddr (s.sp + 1#8)) := by simp [State.pull]
@[simp] theorem pull_cycles (s : State) : (s.pull.2).cycles = s.cycles := by simp [State.pull]
@[simp] theorem pull_accesses (s : State) : (s.pull.2).accesses = s.accesses ++ [.read (stackAddr (s.sp + 1#8)) (s.peek (stackAddr (s.sp + 1#8)))] := by simp [State.pull]

@[simp] theorem peek_pull (s : State) (b : Addr) : s.pull.2.peek b = s.peekAfter (stackAddr (s.sp + 1#8)) b := rfl

/-! A return address on the stack (44_control.md R201, R202), field by field. -/

@[simp] theorem pushAddr_a (s : State) (r : Addr) : (s.pushAddr r).a = s.a := by simp [State.pushAddr]
@[simp] theorem pushAddr_x (s : State) (r : Addr) : (s.pushAddr r).x = s.x := by simp [State.pushAddr]
@[simp] theorem pushAddr_y (s : State) (r : Addr) : (s.pushAddr r).y = s.y := by simp [State.pushAddr]
@[simp] theorem pushAddr_sp (s : State) (r : Addr) : (s.pushAddr r).sp = s.sp - 1#8 - 1#8 := by simp [State.pushAddr]
@[simp] theorem pushAddr_pc (s : State) (r : Addr) : (s.pushAddr r).pc = s.pc := by simp [State.pushAddr]
@[simp] theorem pushAddr_p (s : State) (r : Addr) : (s.pushAddr r).p = s.p := by simp [State.pushAddr]
@[simp] theorem pushAddr_nmiPending (s : State) (r : Addr) : (s.pushAddr r).nmiPending = s.nmiPending := by simp [State.pushAddr]
@[simp] theorem pushAddr_irqLine (s : State) (r : Addr) : (s.pushAddr r).irqLine = s.irqLine := by simp [State.pushAddr]
@[simp] theorem pushAddr_params (s : State) (r : Addr) : (s.pushAddr r).params = s.params := by simp [State.pushAddr]
@[simp] theorem pushAddr_mem (s : State) (r : Addr) : (s.pushAddr r).mem = s.params.writeByte (s.params.writeByte s.mem (stackAddr s.sp) (hiByte r)) (stackAddr (s.sp - 1#8)) (loByte r) := by simp [State.pushAddr]
@[simp] theorem pushAddr_deviceState (s : State) (r : Addr) : (s.pushAddr r).deviceState =
    s.params.devicesAfterWrite (s.params.devicesAfterWrite s.deviceState (stackAddr s.sp) (hiByte r)) (stackAddr (s.sp - 1#8)) (loByte r) := by simp [State.pushAddr]
@[simp] theorem pushAddr_cycles (s : State) (r : Addr) : (s.pushAddr r).cycles = s.cycles := by simp [State.pushAddr]
@[simp] theorem pushAddr_accesses (s : State) (r : Addr) : (s.pushAddr r).accesses = s.accesses ++ [.write (stackAddr s.sp) (hiByte r), .write (stackAddr (s.sp - 1#8)) (loByte r)] := by simp [State.pushAddr]

@[simp] theorem pullAddr_fst (s : State) :
    s.pullAddr.1 = w16 (s.peek (stackAddr (s.sp + 1#8))) (s.peekAfter (stackAddr (s.sp + 1#8)) (stackAddr (s.sp + 1#8 + 1#8))) := by
  simp [State.pullAddr]

@[simp] theorem pullAddr_a (s : State) : (s.pullAddr.2).a = s.a := by simp [State.pullAddr]
@[simp] theorem pullAddr_x (s : State) : (s.pullAddr.2).x = s.x := by simp [State.pullAddr]
@[simp] theorem pullAddr_y (s : State) : (s.pullAddr.2).y = s.y := by simp [State.pullAddr]
@[simp] theorem pullAddr_sp (s : State) : (s.pullAddr.2).sp = s.sp + 1#8 + 1#8 := by simp [State.pullAddr]
@[simp] theorem pullAddr_pc (s : State) : (s.pullAddr.2).pc = s.pc := by simp [State.pullAddr]
@[simp] theorem pullAddr_p (s : State) : (s.pullAddr.2).p = s.p := by simp [State.pullAddr]
@[simp] theorem pullAddr_nmiPending (s : State) : (s.pullAddr.2).nmiPending = s.nmiPending := by simp [State.pullAddr]
@[simp] theorem pullAddr_irqLine (s : State) : (s.pullAddr.2).irqLine = s.irqLine := by simp [State.pullAddr]
@[simp] theorem pullAddr_params (s : State) : (s.pullAddr.2).params = s.params := by simp [State.pullAddr]
@[simp] theorem pullAddr_mem (s : State) : (s.pullAddr.2).mem = s.mem := by simp [State.pullAddr]
@[simp] theorem pullAddr_deviceState (s : State) : (s.pullAddr.2).deviceState = s.params.devicesAfterRead (s.params.devicesAfterRead s.deviceState (stackAddr (s.sp + 1#8))) (stackAddr (s.sp + 1#8 + 1#8)) := by simp [State.pullAddr]
@[simp] theorem pullAddr_cycles (s : State) : (s.pullAddr.2).cycles = s.cycles := by simp [State.pullAddr]
@[simp] theorem pullAddr_accesses (s : State) : (s.pullAddr.2).accesses = s.accesses ++ [.read (stackAddr (s.sp + 1#8)) (s.peek (stackAddr (s.sp + 1#8))), .read (stackAddr (s.sp + 1#8 + 1#8)) (s.peekAfter (stackAddr (s.sp + 1#8)) (stackAddr (s.sp + 1#8 + 1#8)))] := by simp [State.pullAddr]

/-! Taking an exception (45_flags_system.md R228; 60_exceptions.md R245), field by field: three pushes, I set, PC from the
vector as the bus stands after the pushes. -/

/-- The state after the three writes of an exception. -/
def framePushed (s : State) (ret : Addr) (status : Byte) : State :=
  ((s.busWrite (stackAddr s.sp) (hiByte ret)).busWrite (stackAddr (s.sp - 1#8)) (loByte ret)).busWrite
    (stackAddr (s.sp - 1#8 - 1#8)) status

theorem peek_masked (s : State) (ret : Addr) (status v : Byte) (a : Addr) :
    ((((s.pushAddr ret).push status).withP v)).peek a = (framePushed s ret status).peek a :=
  peek_congr (by simp [framePushed]) (by simp [framePushed]) (by simp [framePushed]) a

theorem peekAfter_masked (s : State) (ret : Addr) (status v : Byte) (a b : Addr) :
    ((((s.pushAddr ret).push status).withP v)).peekAfter a b = (framePushed s ret status).peekAfter a b :=
  peekAfter_congr (by simp [framePushed]) (by simp [framePushed]) (by simp [framePushed]) a b

@[simp] theorem takeException_a (s : State) (ret : Addr) (status : Byte) (vector : Addr) : (s.takeException ret status vector).a = s.a := by
  simp only [State.takeException, busRead16_eq, busReadPair_a, State.withPc_a, setFlag_eq, State.withP_a, push_a, pushAddr_a]
@[simp] theorem takeException_x (s : State) (ret : Addr) (status : Byte) (vector : Addr) : (s.takeException ret status vector).x = s.x := by
  simp only [State.takeException, busRead16_eq, busReadPair_x, State.withPc_x, setFlag_eq, State.withP_x, push_x, pushAddr_x]
@[simp] theorem takeException_y (s : State) (ret : Addr) (status : Byte) (vector : Addr) : (s.takeException ret status vector).y = s.y := by
  simp only [State.takeException, busRead16_eq, busReadPair_y, State.withPc_y, setFlag_eq, State.withP_y, push_y, pushAddr_y]
@[simp] theorem takeException_sp (s : State) (ret : Addr) (status : Byte) (vector : Addr) : (s.takeException ret status vector).sp = s.sp - 1#8 - 1#8 - 1#8 := by
  simp only [State.takeException, busRead16_eq, busReadPair_sp, State.withPc_sp, setFlag_eq, State.withP_sp, push_sp, pushAddr_sp]
@[simp] theorem takeException_pc (s : State) (ret : Addr) (status : Byte) (vector : Addr) : (s.takeException ret status vector).pc = 
    some (w16 ((framePushed s ret status).peek vector) ((framePushed s ret status).peekAfter vector (vector + 1#16))) := by
  simp only [State.takeException, busRead16_eq, busReadPair_fst, State.withPc_pc, setFlag_eq, peek_masked, peekAfter_masked]
@[simp] theorem takeException_p (s : State) (ret : Addr) (status : Byte) (vector : Addr) : (s.takeException ret status vector).p = setFlag s.p .i true := by
  simp only [State.takeException, busRead16_eq, busReadPair_p, State.withPc_p, setFlag_eq, State.withP_p, push_p, pushAddr_p]
@[simp] theorem takeException_nmiPending (s : State) (ret : Addr) (status : Byte) (vector : Addr) : (s.takeException ret status vector).nmiPending = s.nmiPending := by
  simp only [State.takeException, busRead16_eq, busReadPair_nmiPending, State.withPc_nmiPending, setFlag_eq, State.withP_nmiPending, push_nmiPending, pushAddr_nmiPending]
@[simp] theorem takeException_irqLine (s : State) (ret : Addr) (status : Byte) (vector : Addr) : (s.takeException ret status vector).irqLine = s.irqLine := by
  simp only [State.takeException, busRead16_eq, busReadPair_irqLine, State.withPc_irqLine, setFlag_eq, State.withP_irqLine, push_irqLine, pushAddr_irqLine]
@[simp] theorem takeException_params (s : State) (ret : Addr) (status : Byte) (vector : Addr) : (s.takeException ret status vector).params = s.params := by
  simp only [State.takeException, busRead16_eq, busReadPair_params, State.withPc_params, setFlag_eq, State.withP_params, push_params, pushAddr_params]
@[simp] theorem takeException_mem (s : State) (ret : Addr) (status : Byte) (vector : Addr) : (s.takeException ret status vector).mem = (framePushed s ret status).mem := by
  simp only [State.takeException, busRead16_eq, busReadPair_mem, State.withPc_mem, setFlag_eq, State.withP_mem, push_mem,
    pushAddr_mem, pushAddr_params, pushAddr_sp, framePushed, busWrite_mem, busWrite_params]
@[simp] theorem takeException_deviceState (s : State) (ret : Addr) (status : Byte) (vector : Addr) : (s.takeException ret status vector).deviceState = s.params.devicesAfterRead (s.params.devicesAfterRead (framePushed s ret status).deviceState vector) (vector + 1#16) := by
  simp only [State.takeException, busRead16_eq, busReadPair_deviceState, State.withPc_deviceState, setFlag_eq, State.withP_deviceState,
    State.withP_params, push_deviceState, push_params, pushAddr_deviceState, pushAddr_params, pushAddr_sp, framePushed,
    busWrite_deviceState, busWrite_params]
@[simp] theorem takeException_cycles (s : State) (ret : Addr) (status : Byte) (vector : Addr) : (s.takeException ret status vector).cycles = s.cycles := by
  simp only [State.takeException, busRead16_eq, busReadPair_cycles, State.withPc_cycles, setFlag_eq, State.withP_cycles, push_cycles, pushAddr_cycles]
@[simp] theorem takeException_accesses (s : State) (ret : Addr) (status : Byte) (vector : Addr) : (s.takeException ret status vector).accesses = s.accesses ++
    [.write (stackAddr s.sp) (hiByte ret), .write (stackAddr (s.sp - 1#8)) (loByte ret),
     .write (stackAddr (s.sp - 1#8 - 1#8)) status, .read vector ((framePushed s ret status).peek vector),
     .read (vector + 1#16) ((framePushed s ret status).peekAfter vector (vector + 1#16))] := by
  simp only [State.takeException, busRead16_eq, busReadPair_accesses, State.withPc_accesses, setFlag_eq, peek_masked,
    peekAfter_masked, State.withP_accesses, push_accesses, pushAddr_accesses, pushAddr_sp, List.append_assoc, List.cons_append, List.nil_append]

/-! Returning from an exception (45_flags_system.md R229), field by field. -/

/-- The byte a read at `c` gives after reads at `a` and `b`. -/
def State.peekAfter2 (s : State) (a b c : Addr) : Byte :=
  s.params.readByte s.mem (s.params.devicesAfterRead (s.params.devicesAfterRead s.deviceState a) b) c

@[simp] theorem peekAfter_busRead (s : State) (a b c : Addr) : (s.busRead a).2.peekAfter b c = s.peekAfter2 a b c := rfl

/-- Reads change what other reads give nowhere but on a device. -/
theorem peekAfter2_of_not_device {s : State} {c : Addr} (h : s.params.isDevice c = false) (a b : Addr) :
    s.peekAfter2 a b c = s.peek c := readByte_count h _ _ _

@[simp] theorem peekAfter_withP (s : State) (v : Byte) (a b : Addr) : (s.withP v).peekAfter a b = s.peekAfter a b := rfl

@[simp] theorem peekAfter_pull (s : State) (a b : Addr) :
    s.pull.2.peekAfter a b = s.peekAfter2 (stackAddr (s.sp + 1#8)) a b := rfl

@[simp] theorem returnFromException_a (s : State) : (s.returnFromException).a = s.a := by
  simp [State.returnFromException]
@[simp] theorem returnFromException_x (s : State) : (s.returnFromException).x = s.x := by
  simp [State.returnFromException]
@[simp] theorem returnFromException_y (s : State) : (s.returnFromException).y = s.y := by
  simp [State.returnFromException]
@[simp] theorem returnFromException_sp (s : State) : (s.returnFromException).sp = s.sp + 1#8 + 1#8 + 1#8 := by
  simp [State.returnFromException]
@[simp] theorem returnFromException_pc (s : State) : (s.returnFromException).pc = 
    some (w16 (s.peekAfter (stackAddr (s.sp + 1#8)) (stackAddr (s.sp + 1#8 + 1#8)))
      (s.peekAfter2 (stackAddr (s.sp + 1#8)) (stackAddr (s.sp + 1#8 + 1#8)) (stackAddr (s.sp + 1#8 + 1#8 + 1#8)))) := by
  simp [State.returnFromException]
@[simp] theorem returnFromException_p (s : State) : (s.returnFromException).p = pulledStatus (s.peek (stackAddr (s.sp + 1#8))) := by
  simp [State.returnFromException]
@[simp] theorem returnFromException_nmiPending (s : State) : (s.returnFromException).nmiPending = s.nmiPending := by
  simp [State.returnFromException]
@[simp] theorem returnFromException_irqLine (s : State) : (s.returnFromException).irqLine = s.irqLine := by
  simp [State.returnFromException]
@[simp] theorem returnFromException_params (s : State) : (s.returnFromException).params = s.params := by
  simp [State.returnFromException]
@[simp] theorem returnFromException_mem (s : State) : (s.returnFromException).mem = s.mem := by
  simp [State.returnFromException]
@[simp] theorem returnFromException_deviceState (s : State) : (s.returnFromException).deviceState = s.params.devicesAfterRead (s.params.devicesAfterRead (s.params.devicesAfterRead s.deviceState
    (stackAddr (s.sp + 1#8))) (stackAddr (s.sp + 1#8 + 1#8))) (stackAddr (s.sp + 1#8 + 1#8 + 1#8)) := by
  simp [State.returnFromException]
@[simp] theorem returnFromException_cycles (s : State) : (s.returnFromException).cycles = s.cycles := by
  simp [State.returnFromException]
@[simp] theorem returnFromException_accesses (s : State) : (s.returnFromException).accesses = s.accesses ++ [.read (stackAddr (s.sp + 1#8)) (s.peek (stackAddr (s.sp + 1#8))),
    .read (stackAddr (s.sp + 1#8 + 1#8)) (s.peekAfter (stackAddr (s.sp + 1#8)) (stackAddr (s.sp + 1#8 + 1#8))),
    .read (stackAddr (s.sp + 1#8 + 1#8 + 1#8))
      (s.peekAfter2 (stackAddr (s.sp + 1#8)) (stackAddr (s.sp + 1#8 + 1#8)) (stackAddr (s.sp + 1#8 + 1#8 + 1#8)))] := by
  simp [State.returnFromException]

theorem push_wf {s : State} (w : s.mem.wf = true) (v : Byte) : (s.push v).mem.wf = true := by
  simpa using writeByte_wf w _ _ v

theorem pushAddr_wf {s : State} (w : s.mem.wf = true) (a : Addr) : (s.pushAddr a).mem.wf = true := by
  simpa using writeByte_wf (writeByte_wf w _ _ _) _ _ _

theorem takeException_wf {s : State} (w : s.mem.wf = true) (ret : Addr) (status : Byte) (vector : Addr) :
    (s.takeException ret status vector).mem.wf = true := by
  simpa [framePushed] using writeByte_wf (writeByte_wf (writeByte_wf w _ _ _) _ _ _) _ _ status

/-- The two stack addresses of different offsets differ. -/
theorem stackAddr_toNat (sp : Byte) : (stackAddr sp).toNat = 256 + sp.toNat := by
  have h : ∀ n : Fin 256, (stackAddr (BitVec.ofFin n)).toNat = 256 + n.val := by decide +kernel
  exact h sp.toFin

theorem stackAddr_inj {a b : Byte} (h : stackAddr a = stackAddr b) : a = b := by
  have := congrArg BitVec.toNat h
  rw [stackAddr_toNat, stackAddr_toNat] at this
  exact BitVec.eq_of_toNat_eq (by omega)

/-! Fetching (30_encoding.md R85, R90), field by field. -/

@[simp] theorem fetchByte_a (s : State) (pc : Addr) : (s.fetchByte pc).2.a = s.a := by simp [State.fetchByte]
@[simp] theorem fetchByte_x (s : State) (pc : Addr) : (s.fetchByte pc).2.x = s.x := by simp [State.fetchByte]
@[simp] theorem fetchByte_y (s : State) (pc : Addr) : (s.fetchByte pc).2.y = s.y := by simp [State.fetchByte]
@[simp] theorem fetchByte_sp (s : State) (pc : Addr) : (s.fetchByte pc).2.sp = s.sp := by simp [State.fetchByte]
@[simp] theorem fetchByte_p (s : State) (pc : Addr) : (s.fetchByte pc).2.p = s.p := by simp [State.fetchByte]
@[simp] theorem fetchByte_nmiPending (s : State) (pc : Addr) : (s.fetchByte pc).2.nmiPending = s.nmiPending := by simp [State.fetchByte]
@[simp] theorem fetchByte_irqLine (s : State) (pc : Addr) : (s.fetchByte pc).2.irqLine = s.irqLine := by simp [State.fetchByte]
@[simp] theorem fetchByte_params (s : State) (pc : Addr) : (s.fetchByte pc).2.params = s.params := by simp [State.fetchByte]
@[simp] theorem fetchByte_mem (s : State) (pc : Addr) : (s.fetchByte pc).2.mem = s.mem := by simp [State.fetchByte]
@[simp] theorem fetchByte_cycles (s : State) (pc : Addr) : (s.fetchByte pc).2.cycles = s.cycles := by simp [State.fetchByte]
@[simp] theorem fetchByte_fst (s : State) (pc : Addr) : (s.fetchByte pc).1 = s.peek pc := rfl
@[simp] theorem peek_fetchByte (s : State) (pc b : Addr) : (s.fetchByte pc).2.peek b = s.peekAfter pc b := rfl
@[simp] theorem peekAfter_fetchByte (s : State) (pc a b : Addr) : (s.fetchByte pc).2.peekAfter a b = s.peekAfter2 pc a b := rfl
@[simp] theorem fetchByte_pc (s : State) (pc : Addr) : (s.fetchByte pc).2.pc = some (addrPlus pc 1) := by simp [State.fetchByte]
@[simp] theorem fetchByte_deviceState (s : State) (pc : Addr) :
    (s.fetchByte pc).2.deviceState = s.params.devicesAfterRead s.deviceState pc := by simp [State.fetchByte]
@[simp] theorem fetchByte_accesses (s : State) (pc : Addr) :
    (s.fetchByte pc).2.accesses = s.accesses ++ [.read pc (s.peek pc)] := by simp [State.fetchByte]

@[simp] theorem fetchOperands_a (s : State) (pc : Addr) (f : OpForm) : (s.fetchOperands pc f).2.a = s.a := by
  cases f <;> simp [State.fetchOperands]
@[simp] theorem fetchOperands_x (s : State) (pc : Addr) (f : OpForm) : (s.fetchOperands pc f).2.x = s.x := by
  cases f <;> simp [State.fetchOperands]
@[simp] theorem fetchOperands_y (s : State) (pc : Addr) (f : OpForm) : (s.fetchOperands pc f).2.y = s.y := by
  cases f <;> simp [State.fetchOperands]
@[simp] theorem fetchOperands_sp (s : State) (pc : Addr) (f : OpForm) : (s.fetchOperands pc f).2.sp = s.sp := by
  cases f <;> simp [State.fetchOperands]
@[simp] theorem fetchOperands_p (s : State) (pc : Addr) (f : OpForm) : (s.fetchOperands pc f).2.p = s.p := by
  cases f <;> simp [State.fetchOperands]
@[simp] theorem fetchOperands_nmiPending (s : State) (pc : Addr) (f : OpForm) : (s.fetchOperands pc f).2.nmiPending = s.nmiPending := by
  cases f <;> simp [State.fetchOperands]
@[simp] theorem fetchOperands_irqLine (s : State) (pc : Addr) (f : OpForm) : (s.fetchOperands pc f).2.irqLine = s.irqLine := by
  cases f <;> simp [State.fetchOperands]
@[simp] theorem fetchOperands_params (s : State) (pc : Addr) (f : OpForm) : (s.fetchOperands pc f).2.params = s.params := by
  cases f <;> simp [State.fetchOperands]
@[simp] theorem fetchOperands_mem (s : State) (pc : Addr) (f : OpForm) : (s.fetchOperands pc f).2.mem = s.mem := by
  cases f <;> simp [State.fetchOperands]
@[simp] theorem fetchOperands_cycles (s : State) (pc : Addr) (f : OpForm) : (s.fetchOperands pc f).2.cycles = s.cycles := by
  cases f <;> simp [State.fetchOperands]

end Sys2Proof.Machine
end

