-- ==== Sys2Proof/Laws/Operands.lean ====
section
/-! SUPPORT. What the resolver and the operand accesses do to the state: they change nothing but the list of accesses and
the number of device reads. -/

namespace Sys2Proof.Machine

set_option Elab.async false

/-- The two bytes of the pointer a form reads while it is resolved (30_encoding.md R103). -/
def pointerOf (f : AddrForm) (s : State) : Option (Addr × Addr) :=
  match f with
  | .indirect p  => some (p, pageWrapNext p)
  | .indirectX b => some (zext16 (b + s.x), zext16 (b + s.x + 1#8))
  | .indirectY b => some (zext16 b, zext16 (b + 1#8))
  | _ => none

/-- The state after a pointer is read: two reads, the low byte first. -/
def afterPointer (o : Option (Addr × Addr)) (s : State) : State :=
  match o with
  | none => s
  | some (a, b) => (s.busReadPair a b).2

/-- The resolver makes its pointer reads and changes nothing else. -/
theorem resolve_st (f : AddrForm) (s : State) : (resolve f s).st = afterPointer (pointerOf f s) s := by
  cases f <;> rfl

/-- The resolver looks at X, Y and the bus only. -/
theorem resolve_ea_congr (f : AddrForm) {s t : State} (hx : s.x = t.x) (hy : s.y = t.y) (hp : s.params = t.params)
    (hm : s.mem = t.mem) (hn : s.deviceState = t.deviceState) : (resolve f s).ea = (resolve f t).ea := by
  cases f <;> simp [resolve, indexed, hx, hy, peek_eq, State.peekAfter, hp, hm, hn]

@[simp] theorem resolve_st_a (f : AddrForm) (s : State) : (resolve f s).st.a = s.a := by
  cases f <;> simp [resolve, indexed]
@[simp] theorem resolve_st_x (f : AddrForm) (s : State) : (resolve f s).st.x = s.x := by
  cases f <;> simp [resolve, indexed]
@[simp] theorem resolve_st_y (f : AddrForm) (s : State) : (resolve f s).st.y = s.y := by
  cases f <;> simp [resolve, indexed]
@[simp] theorem resolve_st_sp (f : AddrForm) (s : State) : (resolve f s).st.sp = s.sp := by
  cases f <;> simp [resolve, indexed]
@[simp] theorem resolve_st_pc (f : AddrForm) (s : State) : (resolve f s).st.pc = s.pc := by
  cases f <;> simp [resolve, indexed]
@[simp] theorem resolve_st_p (f : AddrForm) (s : State) : (resolve f s).st.p = s.p := by
  cases f <;> simp [resolve, indexed]
@[simp] theorem resolve_st_nmiPending (f : AddrForm) (s : State) : (resolve f s).st.nmiPending = s.nmiPending := by
  cases f <;> simp [resolve, indexed]
@[simp] theorem resolve_st_irqLine (f : AddrForm) (s : State) : (resolve f s).st.irqLine = s.irqLine := by
  cases f <;> simp [resolve, indexed]
@[simp] theorem resolve_st_params (f : AddrForm) (s : State) : (resolve f s).st.params = s.params := by
  cases f <;> simp [resolve, indexed]
@[simp] theorem resolve_st_mem (f : AddrForm) (s : State) : (resolve f s).st.mem = s.mem := by
  cases f <;> simp [resolve, indexed]
@[simp] theorem resolve_st_cycles (f : AddrForm) (s : State) : (resolve f s).st.cycles = s.cycles := by
  cases f <;> simp [resolve, indexed]

/-! Reading a source, field by field: it makes its bus reads and changes nothing else. -/

@[simp] theorem source_read_immediate (v : Byte) (s : State) : (Source.immediate v).read s = (v, s) := rfl

theorem source_read_memory (f : AddrForm) (s : State) :
    (Source.memory f).read s = ((resolve f s).st.peek (resolve f s).ea, ((resolve f s).st.busRead (resolve f s).ea).2) := rfl

@[simp] theorem source_read_a (src : Source) (s : State) : (src.read s).2.a = s.a := by
  cases src <;> simp [source_read_memory]
@[simp] theorem source_read_x (src : Source) (s : State) : (src.read s).2.x = s.x := by
  cases src <;> simp [source_read_memory]
@[simp] theorem source_read_y (src : Source) (s : State) : (src.read s).2.y = s.y := by
  cases src <;> simp [source_read_memory]
@[simp] theorem source_read_sp (src : Source) (s : State) : (src.read s).2.sp = s.sp := by
  cases src <;> simp [source_read_memory]
@[simp] theorem source_read_pc (src : Source) (s : State) : (src.read s).2.pc = s.pc := by
  cases src <;> simp [source_read_memory]
@[simp] theorem source_read_p (src : Source) (s : State) : (src.read s).2.p = s.p := by
  cases src <;> simp [source_read_memory]
@[simp] theorem source_read_nmiPending (src : Source) (s : State) : (src.read s).2.nmiPending = s.nmiPending := by
  cases src <;> simp [source_read_memory]
@[simp] theorem source_read_irqLine (src : Source) (s : State) : (src.read s).2.irqLine = s.irqLine := by
  cases src <;> simp [source_read_memory]
@[simp] theorem source_read_params (src : Source) (s : State) : (src.read s).2.params = s.params := by
  cases src <;> simp [source_read_memory]
@[simp] theorem source_read_mem (src : Source) (s : State) : (src.read s).2.mem = s.mem := by
  cases src <;> simp [source_read_memory]
@[simp] theorem source_read_cycles (src : Source) (s : State) : (src.read s).2.cycles = s.cycles := by
  cases src <;> simp [source_read_memory]

/-- The resolver adds to the list of accesses. -/
theorem resolve_accesses_extend (f : AddrForm) (s : State) : ∃ l, (resolve f s).st.accesses = s.accesses ++ l := by
  rw [resolve_st]
  cases pointerOf f s with
  | none => exact ⟨[], by simp [afterPointer]⟩
  | some p => exact ⟨_, by simp [afterPointer]; rfl⟩

/-- Reading a source adds to the list of accesses. -/
theorem source_read_accesses_extend (src : Source) (s : State) : ∃ l, (src.read s).2.accesses = s.accesses ++ l := by
  cases src with
  | immediate v => exact ⟨[], by simp⟩
  | memory f =>
    obtain ⟨l, hl⟩ := resolve_accesses_extend f s
    exact ⟨l ++ [.read _ _], by rw [source_read_memory, busRead_accesses, hl, List.append_assoc]⟩

/-- A read-modify-write of A. -/
@[simp] theorem modify_accumulator {β : Type} (f : Byte → Byte × β) (s : State) :
    Target.accumulator.modify f s = (f s.a, s.withA (f s.a).1) := rfl

/-- A read-modify-write of memory reads once and writes once, at one address (30_encoding.md R104; 20_memory.md R61). -/
theorem modify_memory {β : Type} (form : AddrForm) (f : Byte → Byte × β) (s : State) :
    (Target.memory form).modify f s
      = (f ((Source.memory form).read s).1,
         ((Source.memory form).read s).2.busWrite (resolve form s).ea (f ((Source.memory form).read s).1).1) := rfl

/-! The address computations as numbers. -/

/-- `zext_16` keeps the number (00_scope.md R10). -/
theorem zext16_toNat (b : Byte) : (zext16 b).toNat = b.toNat := by
  have := b.isLt
  simp [zext16]; omega

/-- The high byte of a JMP indirect target is read in the pointer's own page (30_encoding.md R100). -/
theorem pageWrapNext_eq (a : Addr) : pageWrapNext a = w16 (loByte a + 1#8) (hiByte a) := by
  have hm : ∀ j : Fin 16, (0xFF00#16).getLsbD j.val = !decide (j.val < 8) := by decide
  have hl : ∀ j : Fin 16, (0x00FF#16).getLsbD j.val = decide (j.val < 8) := by decide
  have hs : loByte (a + 1#16) = loByte a + 1#8 := by
    apply BitVec.eq_of_toNat_eq; simp [loByte]
  apply BitVec.eq_of_getLsbD_eq
  intro i hi
  have h1 := hm ⟨i, hi⟩
  have h2 := hl ⟨i, hi⟩
  simp only at h1 h2
  rw [pageWrapNext, BitVec.getLsbD_or, BitVec.getLsbD_and, BitVec.getLsbD_and, getLsbD_w16, ← hs, getLsbD_loByte, getLsbD_hiByte, h1, h2]
  by_cases h8 : i < 8
  · simp [h8]
  · have e : 8 + (i - 8) = i := by omega
    have : i - 8 < 8 := by omega
    simp only [h8, e, hi, this]; simp

/-- The same, as a number. -/
theorem pageWrapNext_toNat (a : Addr) : (pageWrapNext a).toNat = a.toNat / 256 * 256 + (a.toNat + 1) % 256 := by
  have := a.isLt
  rw [pageWrapNext_eq, w16_toNat, hiByte_toNat, BitVec.toNat_add, loByte_toNat]
  simp; omega

/-- A branch target is the address after the branch plus the signed offset, modulo 65 536 (30_encoding.md R99). -/
theorem relativeTarget_toNat (pc : Addr) (off : Byte) : ((relativeTarget pc off).toNat : Int) = (pc.toNat + off.toInt) % 65536 := by
  unfold relativeTarget sext16
  have e : (BitVec.signExtend 16 off).toInt = off.toInt := BitVec.toInt_signExtend_of_le (by omega)
  rw [BitVec.toInt_eq_toNat_bmod] at e
  have := (BitVec.signExtend 16 off).isLt
  rw [BitVec.toNat_add]
  have h2 : ((BitVec.signExtend 16 off).toNat : Int) % 65536 = off.toInt % 65536 := by
    rw [← e]; simp [Int.bmod_def]; split <;> omega
  omega

/-- Two addresses are in different pages exactly when their high bytes differ. -/
theorem pageDiffers_iff (a b : Addr) : pageDiffers a b = true ↔ a.toNat / 256 ≠ b.toNat / 256 := by
  rw [← hiByte_toNat, ← hiByte_toNat]
  simp [pageDiffers, BitVec.toNat_eq]

end Sys2Proof.Machine
end

