-- ==== Sys2Proof/Laws/Exec.lean ====
section
/-! SUPPORT. What `exec` does, said once by mnemonic and operand, so that no proof unfolds 151 meanings; and what a step can
do, said once. -/

namespace Sys2Proof.Machine

set_option Elab.async false

/-- The operation of a mnemonic on an operand. The last lines of each group stand for operands the mnemonic has no form
with; no instruction meets them. -/
def meaning (m : Mnemonic) (o : Operand) (s : State) : Result :=
  let noForm : Result := .fault .pcUndefined
  let onSource (k : Source → State) : Result :=
    match sourceOf o with
    | some src => .next (k src)
    | none     => noForm
  let onTarget (k : Target → State) : Result :=
    match targetOf o with
    | some t => .next (k t)
    | none   => noForm
  let onForm (k : AddrForm → State) : Result :=
    match o with
    | .memory f => .next (k f)
    | _ => noForm
  match m with
  | .lda => onSource (fun src => loadReg .a src s)
  | .ldx => onSource (fun src => loadReg .x src s)
  | .ldy => onSource (fun src => loadReg .y src s)
  | .sta => onForm (fun f => storeReg .a f s)
  | .stx => onForm (fun f => storeReg .x f s)
  | .sty => onForm (fun f => storeReg .y f s)
  | .tax => .next (s.result .x s.a)
  | .tay => .next (s.result .y s.a)
  | .txa => .next (s.result .a s.x)
  | .tya => .next (s.result .a s.y)
  | .tsx => .next (s.result .x s.sp)
  | .txs => .next (s.withSp s.x)
  | .pha => .next (s.push s.a)
  | .php => .next (s.push (pushedByInstruction s.p))
  | .pla => .next (pullA s)
  | .plp => .next (pullP s)
  | .and => onSource (fun src => logicA (· &&& ·) src s)
  | .eor => onSource (fun src => logicA (· ^^^ ·) src s)
  | .ora => onSource (fun src => logicA (· ||| ·) src s)
  | .bit => onForm (fun f => bitTest f s)
  | .adc => onSource (fun src => addToA id src s)
  | .sbc => onSource (fun src => addToA complement src s)
  | .cmp => onSource (fun src => compareReg .a src s)
  | .cpx => onSource (fun src => compareReg .x src s)
  | .cpy => onSource (fun src => compareReg .y src s)
  | .inc => onForm (fun f => stepMemory incByte f s)
  | .dec => onForm (fun f => stepMemory decByte f s)
  | .inx => .next (s.result .x (incByte s.x))
  | .iny => .next (s.result .y (incByte s.y))
  | .dex => .next (s.result .x (decByte s.x))
  | .dey => .next (s.result .y (decByte s.y))
  | .asl => onTarget (fun t => shiftPlace shiftLeft t s)
  | .lsr => onTarget (fun t => shiftPlace shiftRight t s)
  | .rol => onTarget (fun t => shiftPlace rotateLeft t s)
  | .ror => onTarget (fun t => shiftPlace rotateRight t s)
  | .jmp => onForm (fun f => jumpTo f s)
  | .jsr =>
    match o with
    | .memory (.absolute a) => withPcValue s (callTo a s)
    | _ => noForm
  | .rts => .next (returnFromCall s)
  | .bcc | .bcs | .beq | .bne | .bmi | .bpl | .bvc | .bvs =>
    match o with
    | .relative off => withPcValue s (branchIf (branchCondition m s.p) off s)
    | _ => noForm
  | .clc => .next (s.setFlag .c false)
  | .cld => .next (s.setFlag .d false)
  | .cli => .next (s.setFlag .i false)
  | .clv => .next (s.setFlag .v false)
  | .sec => .next (s.setFlag .c true)
  | .sed => .next (s.setFlag .d true)
  | .sei => .next (s.setFlag .i true)
  | .brk => withPcValue s (breakFrom s)
  | .rti => .next s.returnFromException
  | .nop => .next s

/-- `exec` is the operation of the instruction's mnemonic on its operand. -/
theorem exec_eq_meaning (i : Instr) (s : State) : exec i s = meaning i.mnemonic i.operand s := by
  cases i <;> rfl

/-- Every instruction is well formed: its type leaves room for no other. -/
theorem wellFormed_all (i : Instr) : i.wellFormed = true := by cases i <;> rfl

/-- The mode of an instruction is one its mnemonic has a form in. -/
theorem mode_mem_modes (i : Instr) : i.operand.mode ∈ i.mnemonic.modes := by
  simpa [Instr.wellFormed, Instr.mode] using wellFormed_all i

/-- An operand in a mode that reads a byte is a source. -/
theorem sourceOf_of_mode {o : Operand} (h : o.mode ∈ [Mode.immediate, .zeroPage, .zeroPageX, .zeroPageY, .absolute,
    .absoluteX, .absoluteY, .indirectX, .indirectY]) : ∃ src, sourceOf o = some src := by
  cases o <;> simp [Operand.mode, sourceOf] at h ⊢

/-- An operand in a mode that names a place is a place. -/
theorem form_of_mode {o : Operand} (h : o.mode ∈ [Mode.zeroPage, .zeroPageX, .zeroPageY, .absolute, .absoluteX,
    .absoluteY, .indirect, .indirectX, .indirectY]) : ∃ f, o = .memory f := by
  cases o <;> simp [Operand.mode] at h ⊢

/-- The state changes an instruction that never looks at PC can make, by mnemonic and mode. -/
inductive Effect : Mnemonic → Mode → (State → State) → Prop
  | lda o src : Effect .lda o (loadReg .a src)
  | ldx o src : Effect .ldx o (loadReg .x src)
  | ldy o src : Effect .ldy o (loadReg .y src)
  | sta o f : Effect .sta o (storeReg .a f)
  | stx o f : Effect .stx o (storeReg .x f)
  | sty o f : Effect .sty o (storeReg .y f)
  | tax o : Effect .tax o (fun s => s.result .x s.a)
  | tay o : Effect .tay o (fun s => s.result .y s.a)
  | txa o : Effect .txa o (fun s => s.result .a s.x)
  | tya o : Effect .tya o (fun s => s.result .a s.y)
  | tsx o : Effect .tsx o (fun s => s.result .x s.sp)
  | txs o : Effect .txs o (fun s => s.withSp s.x)
  | pha o : Effect .pha o (fun s => s.push s.a)
  | php o : Effect .php o (fun s => s.push (pushedByInstruction s.p))
  | pla o : Effect .pla o pullA
  | plp o : Effect .plp o pullP
  | and o src : Effect .and o (logicA (· &&& ·) src)
  | eor o src : Effect .eor o (logicA (· ^^^ ·) src)
  | ora o src : Effect .ora o (logicA (· ||| ·) src)
  | bit o f : Effect .bit o (bitTest f)
  | adc o src : Effect .adc o (addToA id src)
  | sbc o src : Effect .sbc o (addToA complement src)
  | cmp o src : Effect .cmp o (compareReg .a src)
  | cpx o src : Effect .cpx o (compareReg .x src)
  | cpy o src : Effect .cpy o (compareReg .y src)
  | inc o f : Effect .inc o (stepMemory incByte f)
  | dec o f : Effect .dec o (stepMemory decByte f)
  | inx o : Effect .inx o (fun s => s.result .x (incByte s.x))
  | iny o : Effect .iny o (fun s => s.result .y (incByte s.y))
  | dex o : Effect .dex o (fun s => s.result .x (decByte s.x))
  | dey o : Effect .dey o (fun s => s.result .y (decByte s.y))
  | shiftA m op : m ∈ [Mnemonic.asl, .lsr, .rol, .ror] → op ∈ [shiftLeft, shiftRight, rotateLeft, rotateRight] →
      Effect m .accumulator (shiftPlace op .accumulator)
  | shiftM m o op f : m ∈ [Mnemonic.asl, .lsr, .rol, .ror] → op ∈ [shiftLeft, shiftRight, rotateLeft, rotateRight] →
      o ≠ .accumulator → Effect m o (shiftPlace op (.memory f))
  | jmp o f : Effect .jmp o (jumpTo f)
  | rts o : Effect .rts o returnFromCall
  | clc o : Effect .clc o (·.setFlag .c false)
  | cld o : Effect .cld o (·.setFlag .d false)
  | cli o : Effect .cli o (·.setFlag .i false)
  | clv o : Effect .clv o (·.setFlag .v false)
  | sec o : Effect .sec o (·.setFlag .c true)
  | sed o : Effect .sed o (·.setFlag .d true)
  | sei o : Effect .sei o (·.setFlag .i true)
  | rti o : Effect .rti o State.returnFromException
  | nop o : Effect .nop o id

/-- The state changes an instruction that reads PC can make, from the value of PC. -/
inductive PcEffect : Mnemonic → (State → Addr → State) → Prop
  | brk : PcEffect .brk breakFrom
  | jsr a : PcEffect .jsr (callTo a)
  | branch m off : m ∈ [Mnemonic.bcc, .bcs, .beq, .bne, .bmi, .bpl, .bvc, .bvs] →
      PcEffect m (fun s => branchIf (branchCondition m s.p) off s)

theorem mem_of_subset {l k : List Mode} {m : Mode} (h : m ∈ l) (hs : l.all (k.contains ·) = true) : m ∈ k := by
  rw [List.all_eq_true] at hs
  simpa using hs m h

/-- All that an instruction can do: its state change, or its state change from the value of PC. -/
theorem exec_effect (i : Instr) : ∃ m o, i.mnemonic = m ∧ i.mode = o ∧
    ((∃ k, Effect m o k ∧ ∀ s, exec i s = .next (k s)) ∨ (∃ k, PcEffect m k ∧ ∀ s, exec i s = withPcValue s (k s))) := by
  refine ⟨_, _, rfl, rfl, ?_⟩
  rw [Instr.mode]
  simp only [exec_eq_meaning]
  have hmo := mode_mem_modes i
  generalize i.mnemonic = m at hmo
  generalize i.operand = o at hmo
  cases m
  case lda =>
    obtain ⟨src, hs⟩ := sourceOf_of_mode (mem_of_subset hmo (by decide))
    exact .inl ⟨_, .lda _ src, fun s => by simp only [meaning, hs]⟩
  case ldx =>
    obtain ⟨src, hs⟩ := sourceOf_of_mode (mem_of_subset hmo (by decide))
    exact .inl ⟨_, .ldx _ src, fun s => by simp only [meaning, hs]⟩
  case ldy =>
    obtain ⟨src, hs⟩ := sourceOf_of_mode (mem_of_subset hmo (by decide))
    exact .inl ⟨_, .ldy _ src, fun s => by simp only [meaning, hs]⟩
  case and =>
    obtain ⟨src, hs⟩ := sourceOf_of_mode (mem_of_subset hmo (by decide))
    exact .inl ⟨_, .and _ src, fun s => by simp only [meaning, hs]⟩
  case eor =>
    obtain ⟨src, hs⟩ := sourceOf_of_mode (mem_of_subset hmo (by decide))
    exact .inl ⟨_, .eor _ src, fun s => by simp only [meaning, hs]⟩
  case ora =>
    obtain ⟨src, hs⟩ := sourceOf_of_mode (mem_of_subset hmo (by decide))
    exact .inl ⟨_, .ora _ src, fun s => by simp only [meaning, hs]⟩
  case adc =>
    obtain ⟨src, hs⟩ := sourceOf_of_mode (mem_of_subset hmo (by decide))
    exact .inl ⟨_, .adc _ src, fun s => by simp only [meaning, hs]⟩
  case sbc =>
    obtain ⟨src, hs⟩ := sourceOf_of_mode (mem_of_subset hmo (by decide))
    exact .inl ⟨_, .sbc _ src, fun s => by simp only [meaning, hs]⟩
  case cmp =>
    obtain ⟨src, hs⟩ := sourceOf_of_mode (mem_of_subset hmo (by decide))
    exact .inl ⟨_, .cmp _ src, fun s => by simp only [meaning, hs]⟩
  case cpx =>
    obtain ⟨src, hs⟩ := sourceOf_of_mode (mem_of_subset hmo (by decide))
    exact .inl ⟨_, .cpx _ src, fun s => by simp only [meaning, hs]⟩
  case cpy =>
    obtain ⟨src, hs⟩ := sourceOf_of_mode (mem_of_subset hmo (by decide))
    exact .inl ⟨_, .cpy _ src, fun s => by simp only [meaning, hs]⟩
  case sta =>
    obtain ⟨f, rfl⟩ := form_of_mode (mem_of_subset hmo (by decide))
    exact .inl ⟨_, .sta _ f, fun s => rfl⟩
  case stx =>
    obtain ⟨f, rfl⟩ := form_of_mode (mem_of_subset hmo (by decide))
    exact .inl ⟨_, .stx _ f, fun s => rfl⟩
  case sty =>
    obtain ⟨f, rfl⟩ := form_of_mode (mem_of_subset hmo (by decide))
    exact .inl ⟨_, .sty _ f, fun s => rfl⟩
  case bit =>
    obtain ⟨f, rfl⟩ := form_of_mode (mem_of_subset hmo (by decide))
    exact .inl ⟨_, .bit _ f, fun s => rfl⟩
  case inc =>
    obtain ⟨f, rfl⟩ := form_of_mode (mem_of_subset hmo (by decide))
    exact .inl ⟨_, .inc _ f, fun s => rfl⟩
  case dec =>
    obtain ⟨f, rfl⟩ := form_of_mode (mem_of_subset hmo (by decide))
    exact .inl ⟨_, .dec _ f, fun s => rfl⟩
  case jmp =>
    obtain ⟨f, rfl⟩ := form_of_mode (mem_of_subset hmo (by decide))
    exact .inl ⟨_, .jmp _ f, fun s => rfl⟩
  case tax => exact .inl ⟨_, .tax _, fun s => rfl⟩
  case tay => exact .inl ⟨_, .tay _, fun s => rfl⟩
  case txa => exact .inl ⟨_, .txa _, fun s => rfl⟩
  case tya => exact .inl ⟨_, .tya _, fun s => rfl⟩
  case tsx => exact .inl ⟨_, .tsx _, fun s => rfl⟩
  case txs => exact .inl ⟨_, .txs _, fun s => rfl⟩
  case pha => exact .inl ⟨_, .pha _, fun s => rfl⟩
  case php => exact .inl ⟨_, .php _, fun s => rfl⟩
  case pla => exact .inl ⟨_, .pla _, fun s => rfl⟩
  case plp => exact .inl ⟨_, .plp _, fun s => rfl⟩
  case inx => exact .inl ⟨_, .inx _, fun s => rfl⟩
  case iny => exact .inl ⟨_, .iny _, fun s => rfl⟩
  case dex => exact .inl ⟨_, .dex _, fun s => rfl⟩
  case dey => exact .inl ⟨_, .dey _, fun s => rfl⟩
  case rts => exact .inl ⟨_, .rts _, fun s => rfl⟩
  case clc => exact .inl ⟨_, .clc _, fun s => rfl⟩
  case cld => exact .inl ⟨_, .cld _, fun s => rfl⟩
  case cli => exact .inl ⟨_, .cli _, fun s => rfl⟩
  case clv => exact .inl ⟨_, .clv _, fun s => rfl⟩
  case sec => exact .inl ⟨_, .sec _, fun s => rfl⟩
  case sed => exact .inl ⟨_, .sed _, fun s => rfl⟩
  case sei => exact .inl ⟨_, .sei _, fun s => rfl⟩
  case rti => exact .inl ⟨_, .rti _, fun s => rfl⟩
  case nop => exact .inl ⟨_, .nop _, fun s => rfl⟩
  case asl =>
    cases o <;> simp [Operand.mode, Mnemonic.modes] at hmo
    · exact .inl ⟨_, .shiftA _ shiftLeft (by simp) (by simp), fun s => rfl⟩
    · rename_i f
      exact .inl ⟨_, .shiftM _ _ shiftLeft f (by simp) (by simp) (by cases f <;> simp [Operand.mode, AddrForm.mode]), fun s => rfl⟩
  case lsr =>
    cases o <;> simp [Operand.mode, Mnemonic.modes] at hmo
    · exact .inl ⟨_, .shiftA _ shiftRight (by simp) (by simp), fun s => rfl⟩
    · rename_i f
      exact .inl ⟨_, .shiftM _ _ shiftRight f (by simp) (by simp) (by cases f <;> simp [Operand.mode, AddrForm.mode]), fun s => rfl⟩
  case rol =>
    cases o <;> simp [Operand.mode, Mnemonic.modes] at hmo
    · exact .inl ⟨_, .shiftA _ rotateLeft (by simp) (by simp), fun s => rfl⟩
    · rename_i f
      exact .inl ⟨_, .shiftM _ _ rotateLeft f (by simp) (by simp) (by cases f <;> simp [Operand.mode, AddrForm.mode]), fun s => rfl⟩
  case ror =>
    cases o <;> simp [Operand.mode, Mnemonic.modes] at hmo
    · exact .inl ⟨_, .shiftA _ rotateRight (by simp) (by simp), fun s => rfl⟩
    · rename_i f
      exact .inl ⟨_, .shiftM _ _ rotateRight f (by simp) (by simp) (by cases f <;> simp [Operand.mode, AddrForm.mode]), fun s => rfl⟩
  case brk => exact .inr ⟨_, .brk, fun _ => rfl⟩
  case jsr =>
    obtain ⟨f, rfl⟩ := form_of_mode (mem_of_subset hmo (by decide))
    simp [Operand.mode, Mnemonic.modes] at hmo
    cases f <;> simp [AddrForm.mode] at hmo
    exact .inr ⟨_, .jsr _, fun _ => rfl⟩
  all_goals
    have : ∃ off, o = .relative off := by
      cases o <;> simp [Operand.mode, Mnemonic.modes] at hmo ⊢
      rename_i f; cases f <;> simp [AddrForm.mode] at hmo
    obtain ⟨off, rfl⟩ := this
    exact .inr ⟨_, .branch _ off (by simp), fun _ => rfl⟩

/-- What a step can do: enter an NMI, enter an IRQ, or run the instruction at PC; in each case it charges its cycles. -/
theorem step_cases {s t : State} (h : step s = .next t) :
    ∃ pc, s.pc = some pc ∧
      ((s.nmiPending = true ∧ t = (s.beginCall.enterNmi pc).withCycles (some interruptCycles)) ∨
       (s.nmiPending = false ∧ s.irqAccepted = true ∧ t = (s.beginCall.enterIrq pc).withCycles (some interruptCycles)) ∨
       (s.nmiPending = false ∧ s.irqAccepted = false ∧
         ∃ i v u, s.beginCall.fetchInstr pc = .ok (i, v) ∧ exec i v = .next u ∧
           t = u.withCycles (some (cycleCount i v)))) := by
  unfold step at h
  split at h
  · cases h
  · rename_i pc hpc
    refine ⟨pc, hpc, ?_⟩
    split at h
    · rename_i hn
      injection h with h
      exact .inl ⟨hn, h.symm⟩
    · rename_i hn
      split at h
      · rename_i hq
        injection h with h
        exact .inr (.inl ⟨by simpa using hn, hq, h.symm⟩)
      · rename_i hq
        split at h
        · cases h
        · rename_i i v hi
          refine .inr (.inr ⟨by simpa using hn, by simpa using hq, i, v, ?_⟩)
          cases he : exec i v with
          | next u =>
            rw [he] at h
            injection h with h
            exact ⟨u, hi, rfl, h.symm⟩
          | fault f => rw [he] at h; cases h
          | refused f => rw [he] at h; cases h

end Sys2Proof.Machine
end

