-- ==== Sys2Proof/Laws/Bus.lean ====
section
/-! SUPPORT. The core and the bus meet only in the recorded accesses (20_memory.md R61; 00_scope.md R8): each operation, each
instruction and the fetch run over every bus, and do the same over all that answer their reads with the same bytes. -/

namespace Sys2Proof.Machine

set_option Elab.async false

theorem Bus.run_append {σ : Type} (B : Bus σ) (l k : List Access) (b : σ) :
    B.run (l ++ k) b = (B.run l b).bind (B.run k) := by
  induction l generalizing b with
  | nil => rfl
  | cons a l ih => cases a <;> simp only [List.cons_append, Bus.run, ih] <;> split <;> rfl

/-- On a bus that is one device over the whole space, every address is that device's and its own cell. -/
theorem whole_space {p : Params} (h : p.busMap = [⟨0x0000#16, 0xFFFF#16, .device⟩]) (a : Addr) : p.isDevice a = true ∧ p.cell a = a := by
  have hh (b : Addr) : Region.holds ⟨0x0000#16, 0xFFFF#16, .device⟩ b = true := by
    have := b.isLt
    simp [Region.holds]; omega
  simp [Params.isDevice, Params.backing, Params.cell, h, hh]

/-- The devices of a script answer and take its accesses from where it has come to. -/
theorem script_run_from (tm : List TimingRow) (m : Memory) (l : List Access) : ∀ (n : Nat) (d w : List DeviceRow),
    (∀ r ∈ d ++ w, r.state < n) →
    (Params.bus ⟨[⟨0x0000#16, 0xFFFF#16, .device⟩], d ++ (scriptRows l n).1, w ++ (scriptRows l n).2, tm⟩).run l (m, n) =
      some (m, n + l.length) := by
  induction l with
  | nil => intro n d w _; rfl
  | cons x l ih =>
    intro n d w h
    rw [show n + (x :: l).length = n + 1 + l.length by simp only [List.length_cons]; omega]
    cases x with
    | read a v =>
      have := ih (n + 1) (d ++ [⟨n, a, v, n + 1⟩]) w (by
        intro r hr
        simp only [List.append_assoc, List.mem_append, List.mem_singleton] at hr
        rcases hr with hr | rfl | hr
        · exact Nat.lt_succ_of_lt (h r (List.mem_append_left _ hr))
        · exact Nat.lt_succ_self n
        · exact Nat.lt_succ_of_lt (h r (List.mem_append_right _ hr)))
      simp only [List.append_assoc, List.singleton_append] at this
      simp only [scriptRows]
      generalize hp : Params.mk _ (d ++ ⟨n, a, v, n + 1⟩ :: _) _ tm = p at this ⊢
      obtain ⟨h1, h2⟩ := whole_space (p := p) (by rw [← hp]) a
      have hr : p.deviceRead n a = (v, n + 1) := deviceRead_row (r := ⟨n, a, v, n + 1⟩) (by rw [← hp])
        (fun q hq => .inl (Nat.ne_of_lt (h q (List.mem_append_left _ hq))))
      simp only [Bus.run, Params.bus, Params.readByte, Params.devicesAfterRead, h1, h2, hr, if_true]
      exact this
    | write a v =>
      have := ih (n + 1) d (w ++ [⟨n, a, v, n + 1⟩]) (by
        intro r hr
        simp only [List.mem_append, List.mem_singleton] at hr
        rcases hr with hr | hr | rfl
        · exact Nat.lt_succ_of_lt (h r (List.mem_append_left _ hr))
        · exact Nat.lt_succ_of_lt (h r (List.mem_append_right _ hr))
        · exact Nat.lt_succ_self n)
      simp only [List.append_assoc, List.singleton_append] at this
      simp only [scriptRows]
      generalize hp : Params.mk _ _ (w ++ ⟨n, a, v, n + 1⟩ :: _) tm = p at this ⊢
      obtain ⟨h1, h2⟩ := whole_space (p := p) (by rw [← hp]) a
      have hr : p.deviceWrite n a v = n + 1 := deviceWrite_row (r := ⟨n, a, v, n + 1⟩) (by rw [← hp])
        (fun q hq => .inl (Nat.ne_of_lt (h q (List.mem_append_right _ hq))))
      simp only [Bus.run, Params.bus, Params.writeByte, Params.isRam, Params.devicesAfterWrite, h1, h2, hr, if_true, Bool.not_true,
        Bool.and_false]
      exact this

/-- A script runs: on its devices, from state 0, exactly its accesses are answered and taken. -/
theorem script_run (l : List Access) (tm : List TimingRow) (m : Memory) :
    (Params.script l tm).bus.run l (m, 0) = some (m, l.length) :=
  (script_run_from tm m l 0 [] [] nofun).trans (by rw [Nat.zero_add])

/-- A piece of the core's work, over every bus, whatever its pair of functions: the bus answers some accesses `l`, and over any bus
on which `l` can run the work records exactly `l` and gives the same value and, but for the bus, the same state. -/
def ThroughBus {α : Type} (f : State → α × State) : Prop :=
  ∀ (s : State) {σ : Type} (B : Bus σ) (b : σ), ∃ (l : List Access) (b' : σ) (v : α) (u : State),
    B.run l b = some b' ∧ u.accesses = s.accesses ++ l ∧
    ∀ (q : Params) (c c' : Memory × Nat), q.bus.run l c = some c' → f (s.onBus q c) = (v, u.onBus q c')

namespace ThroughBus

/-- On the state's own bus: the recorded accesses are what the work does to it. -/
theorem own {α : Type} {f : State → α × State} (h : ThroughBus f) (s : State) : ∃ l,
    (f s).2.accesses = s.accesses ++ l ∧ (f s).2.params = s.params ∧ s.params.bus.run l s.busState = some (f s).2.busState ∧
    ∀ (q : Params) (c c' : Memory × Nat), q.bus.run l c = some c' → f (s.onBus q c) = ((f s).1, (f s).2.onBus q c') := by
  obtain ⟨l, b', v, u, hr, ha, hf⟩ := h s s.params.bus s.busState
  have e : f s = (v, u.onBus s.params b') := hf s.params s.busState b' hr
  rw [e]
  exact ⟨l, ha, rfl, hr, hf⟩

/-- One piece after another. -/
theorem bind {α β : Type} {f : State → α × State} {g : α → State → β × State} (hf : ThroughBus f) (hg : ∀ a, ThroughBus (g a)) :
    ThroughBus (fun s => g (f s).1 (f s).2) := by
  intro s σ B b
  obtain ⟨l, b1, v, u, r1, a1, f1⟩ := hf s B b
  obtain ⟨k, b2, w, x, r2, a2, f2⟩ := hg v u B b1
  refine ⟨l ++ k, b2, w, x, by rw [Bus.run_append, r1]; exact r2, by rw [a2, a1, List.append_assoc], fun q c c' hr => ?_⟩
  rw [Bus.run_append] at hr
  cases hx : q.bus.run l c with
  | none => rw [hx] at hr; cases hr
  | some c1 =>
    rw [hx] at hr
    simp only [f1 q c c1 hx]
    exact f2 q c1 c' hr

theorem congr {α : Type} {f g : State → α × State} (h : ThroughBus f) (e : ∀ s, f s = g s) : ThroughBus g := funext e ▸ h

/-- A piece that makes no access. -/
theorem noAccess {α : Type} {g : State → α × State} (h1 : ∀ s, (g s).2.accesses = s.accesses)
    (h2 : ∀ s q c, g (s.onBus q c) = ((g s).1, (g s).2.onBus q c)) : ThroughBus g := by
  intro s σ B b
  refine ⟨[], b, (g s).1, (g s).2, rfl, by simp [h1], fun q c c' hr => ?_⟩
  cases hr
  exact h2 s q c

/-- Looking at anything but the bus. -/
theorem get {α : Type} (r : State → α) (h : ∀ s q c, r (s.onBus q c) = r s) : ThroughBus (fun s => (r s, s)) :=
  noAccess (fun _ => rfl) (fun s q c => by simp [h])

theorem pure {α : Type} (v : α) : ThroughBus (fun s => (v, s)) := get (fun _ => v) (fun _ _ _ => rfl)

/-- Writing anything but the bus. -/
theorem set (r : State → State) (h1 : ∀ s, (r s).accesses = s.accesses) (h2 : ∀ s q c, r (s.onBus q c) = (r s).onBus q c) :
    ThroughBus (fun s => ((), r s)) :=
  noAccess h1 (fun s q c => by simp [h2])

/-- The same work with a value already known. -/
theorem keep {α β : Type} {f : State → α × State} (h : ThroughBus f) (v : β) : ThroughBus (fun s => (v, (f s).2)) :=
  h.bind (fun _ => pure v)

/-! The shared operations. -/

theorem busRead (a : Addr) : ThroughBus (fun s => s.busRead a) := by
  intro s σ B b
  refine ⟨[.read a (B.read b a).1], (B.read b a).2, (B.read b a).1, s.record (.read a (B.read b a).1), by simp [Bus.run], rfl,
    fun q c c' hr => ?_⟩
  simp only [Bus.run] at hr
  split at hr
  · rename_i h
    cases hr
    rw [← h]; rfl
  · cases hr

theorem busWrite (a : Addr) (v : Byte) : ThroughBus (fun s => ((), s.busWrite a v)) := by
  intro s σ B b
  refine ⟨[.write a v], B.write b a v, (), s.record (.write a v), rfl, rfl, fun q c c' hr => ?_⟩
  cases hr
  rfl

theorem reg (r : Reg) : ThroughBus (fun s => (s.reg r, s)) := get _ (fun _ _ _ => by cases r <;> rfl)
theorem sp : ThroughBus (fun s => (s.sp, s)) := get _ (fun _ _ _ => rfl)
theorem p : ThroughBus (fun s => (s.p, s)) := get _ (fun _ _ _ => rfl)
theorem flag (f : Flag) : ThroughBus (fun s => (s.flag f, s)) := get _ (fun _ _ _ => rfl)
theorem withSp (v : Byte) : ThroughBus (fun s => ((), s.withSp v)) := set _ (fun _ => rfl) (fun _ _ _ => rfl)
theorem withPc (v : Option Addr) : ThroughBus (fun s => ((), s.withPc v)) := set _ (fun _ => rfl) (fun _ _ _ => rfl)
theorem withP (v : Byte) : ThroughBus (fun s => ((), s.withP v)) := set _ (fun _ => rfl) (fun _ _ _ => rfl)
theorem setZN (v : Byte) : ThroughBus (fun s => ((), s.setZN v)) := set _ (fun _ => rfl) (fun _ _ _ => rfl)
theorem setFlag (f : Flag) (b : Bool) : ThroughBus (fun s => ((), s.setFlag f b)) :=
  set _ (fun _ => rfl) (fun _ _ _ => rfl)
theorem result (r : Reg) (v : Byte) : ThroughBus (fun s => ((), s.result r v)) :=
  set _ (fun _ => by cases r <;> rfl) (fun _ _ _ => by cases r <;> rfl)

theorem busReadPair (a b : Addr) : ThroughBus (fun s => s.busReadPair a b) :=
  ((busRead a).bind (fun l => (busRead b).bind (fun h => pure (w16 l h)))).congr (fun _ => rfl)

theorem push (v : Byte) : ThroughBus (fun s => ((), s.push v)) :=
  (sp.bind (fun k => (busWrite (stackAddr k) v).bind (fun _ => withSp (k - 1#8)))).congr (fun _ => rfl)

theorem pull : ThroughBus (fun s => s.pull) :=
  (sp.bind (fun k => (withSp (k + 1#8)).bind (fun _ => busRead (stackAddr (k + 1#8))))).congr (fun _ => rfl)

theorem pushAddr (a : Addr) : ThroughBus (fun s => ((), s.pushAddr a)) :=
  ((push (hiByte a)).bind (fun _ => push (loByte a))).congr (fun _ => rfl)

theorem pullAddr : ThroughBus (fun s => s.pullAddr) :=
  (pull.bind (fun l => pull.bind (fun h => pure (w16 l h)))).congr (fun _ => rfl)

theorem takeException (ret : Addr) (status : Byte) (v : Addr) : ThroughBus (fun s => ((), s.takeException ret status v)) :=
  ((pushAddr ret).bind (fun _ => (push status).bind (fun _ => (setFlag .i true).bind (fun _ =>
    (busReadPair v (v + 1#16)).bind (fun t => withPc (some t)))))).congr
    (fun s => by unfold State.takeException State.busRead16; rfl)

theorem enterNmi (pc : Addr) : ThroughBus (fun s => ((), s.enterNmi pc)) := by
  refine (p.bind (fun st => (set (·.withNmiPending false) (fun _ => rfl) (fun _ _ _ => rfl)).bind
    (fun _ => takeException pc (pushedByInterrupt st) nmiVector))).congr (fun s => ?_)
  unfold State.enterNmi; rfl

theorem enterIrq (pc : Addr) : ThroughBus (fun s => ((), s.enterIrq pc)) := by
  refine (p.bind (fun st => takeException pc (pushedByInterrupt st) irqBrkVector)).congr (fun s => ?_)
  unfold State.enterIrq; rfl

theorem returnFromException : ThroughBus (fun s => ((), s.returnFromException)) :=
  (pull.bind (fun st => (withP (pulledStatus st)).bind (fun _ => pullAddr.bind (fun t => withPc (some t))))).congr
    (fun s => by unfold State.returnFromException; rfl)

/-- The resolver; its value is the effective address and whether a page was crossed. -/
theorem resolve (f : AddrForm) :
    ThroughBus (fun s => (((Machine.resolve f s).ea, (Machine.resolve f s).crossed), (Machine.resolve f s).st)) := by
  cases f with
  | zeroPage b => exact pure (zext16 b, false)
  | zeroPageX b => exact (reg .x).bind (fun x => pure (zext16 (b + x), false))
  | zeroPageY b => exact (reg .y).bind (fun y => pure (zext16 (b + y), false))
  | absolute a => exact pure (a, false)
  | absoluteX a => exact (reg .x).bind (fun x => pure (a + zext16 x, pageDiffers a (a + zext16 x)))
  | absoluteY a => exact (reg .y).bind (fun y => pure (a + zext16 y, pageDiffers a (a + zext16 y)))
  | indirect a => exact (busReadPair _ _).bind (fun t => pure (t, false))
  | indirectX b =>
    exact ((reg .x).bind (fun x => (busReadPair (zext16 (b + x)) (zext16 (b + x + 1#8))).bind (fun t => pure (t, false)))).congr
      (fun _ => rfl)
  | indirectY b =>
    exact ((reg .y).bind (fun y => (busReadPair (zext16 b) (zext16 (b + 1#8))).bind
      (fun t => pure (t + zext16 y, pageDiffers t (t + zext16 y))))).congr (fun _ => rfl)

/-! Each kind of work on a place in memory, with whether forming its address crossed a page. -/

theorem read (f : AddrForm) : ThroughBus (fun s =>
    ((((Source.memory f).read s).1, (Machine.resolve f s).crossed), ((Source.memory f).read s).2)) :=
  (resolve f).bind (fun e => (busRead e.1).bind (fun v => pure (v, e.2)))

theorem modify {β : Type} (f : AddrForm) (g : Byte → Byte × β) : ThroughBus (fun s =>
    ((((Target.memory f).modify g s).1, (Machine.resolve f s).crossed), ((Target.memory f).modify g s).2)) :=
  ((resolve f).bind (fun e => (busRead e.1).bind (fun m => (busWrite e.1 (g m).1).keep (g m, e.2)))).congr (fun _ => rfl)

/-- An operand that is a source, read. -/
theorem source {o : Operand} {src : Source} (h : sourceOf o = some src) :
    ThroughBus (fun s => (((src.read s).1, operandCrosses o s), (src.read s).2)) := by
  cases o <;> simp [sourceOf] at h <;> subst h
  · exact pure (_, false)
  · exact read _

/-- The operand of an instruction that names no place in memory. -/
theorem operand {o : Operand} (h : ∀ f, o ≠ .memory f) : ThroughBus (fun s => (operandCrosses o s, s)) := by
  cases o with
  | memory f => exact absurd rfl (h f)
  | _ => exact get _ (fun _ _ _ => rfl)

/-! The meanings. -/

theorem loadReg (r : Reg) {o : Operand} {src : Source} (h : sourceOf o = some src) :
    ThroughBus (fun s => (operandCrosses o s, Machine.loadReg r src s)) :=
  (source h).bind (fun v => (result r v.1).keep v.2)

theorem storeReg (r : Reg) (f : AddrForm) : ThroughBus (fun s => (operandCrosses (.memory f) s, Machine.storeReg r f s)) :=
  (reg r).bind (fun v => (resolve f).bind (fun e => (busWrite e.1 v).keep e.2))

theorem logicA (op : Byte → Byte → Byte) {o : Operand} {src : Source} (h : sourceOf o = some src) :
    ThroughBus (fun s => (operandCrosses o s, Machine.logicA op src s)) :=
  (reg .a).bind (fun a => (source h).bind (fun v => (result .a (op a v.1)).keep v.2))

theorem bitTest (f : AddrForm) : ThroughBus (fun s => (operandCrosses (.memory f) s, Machine.bitTest f s)) :=
  (reg .a).bind (fun a => p.bind (fun st => (read f).bind (fun v => (withP (bitTestBits st a v.1)).keep v.2)))

theorem addToA (g : Byte → Byte) {o : Operand} {src : Source} (h : sourceOf o = some src) :
    ThroughBus (fun s => (operandCrosses o s, Machine.addToA g src s)) :=
  (reg .a).bind (fun a => (flag .c).bind (fun c => (source h).bind (fun v =>
    (setFlag .c (sumCarry a (g v.1) c)).bind (fun _ => (setFlag .v (sumOverflow a (g v.1) c)).bind (fun _ =>
      (result .a (sumByte a (g v.1) c)).keep v.2)))))

theorem compareReg (r : Reg) {o : Operand} {src : Source} (h : sourceOf o = some src) :
    ThroughBus (fun s => (operandCrosses o s, Machine.compareReg r src s)) :=
  (reg r).bind (fun a => p.bind (fun st => (source h).bind (fun v => (withP (compareBits st a v.1)).keep v.2)))

theorem stepMemory (g : Byte → Byte) (f : AddrForm) :
    ThroughBus (fun s => (operandCrosses (.memory f) s, Machine.stepMemory g f s)) :=
  (modify f (fun o => (g o, ()))).bind (fun r => (setZN r.1.1).keep r.2)

theorem shiftMemory (op : Byte → Bool → Byte × Bool) (f : AddrForm) :
    ThroughBus (fun s => (operandCrosses (.memory f) s, shiftPlace op (.memory f) s)) :=
  (flag .c).bind (fun c => (modify f (fun o => op o c)).bind (fun r => (setFlag .c r.1.2).bind (fun _ => (setZN r.1.1).keep r.2)))

theorem shiftA (op : Byte → Bool → Byte × Bool) : ThroughBus (fun s => ((), shiftPlace op .accumulator s)) :=
  noAccess (fun _ => rfl) (fun _ _ _ => rfl)

theorem pullA : ThroughBus (fun s => ((), Machine.pullA s)) := (pull.bind (fun v => result .a v)).congr (fun _ => rfl)

theorem pullP : ThroughBus (fun s => ((), Machine.pullP s)) := (pull.bind (fun v => withP (pulledStatus v))).congr (fun _ => rfl)

theorem returnFromCall : ThroughBus (fun s => ((), Machine.returnFromCall s)) :=
  (pullAddr.bind (fun t => withPc (some (t + 1#16)))).congr (fun _ => rfl)

theorem jumpTo (f : AddrForm) : ThroughBus (fun s => (operandCrosses (.memory f) s, Machine.jumpTo f s)) :=
  (resolve f).bind (fun e => (withPc (some e.1)).keep e.2)

theorem withPcValue {k : State → Addr → State} (h : ∀ pc, ThroughBus (fun s => ((), k s pc))) :
    ThroughBus (fun s => ((), match Machine.withPcValue s (k s) with | .next t => t | _ => s)) := by
  have hk (o : Option Addr) : ThroughBus (fun s => ((), match o with | some pc => k s pc | none => s)) := by
    cases o with
    | none => exact pure ()
    | some pc => exact h pc
  refine ((get State.pc (fun _ _ _ => rfl)).bind hk).congr (fun s => ?_)
  unfold Machine.withPcValue
  cases s.pc <;> rfl

theorem branchIf (m : Mnemonic) (off : Byte) (pc : Addr) :
    ThroughBus (fun s => ((), Machine.branchIf (branchCondition m s.p) off s pc)) := by
  have hk (c : Bool) : ThroughBus (fun s => ((), Machine.branchIf c off s pc)) := by
    cases c with
    | false => exact pure ()
    | true => exact withPc _
  exact (p.bind (fun st => hk (branchCondition m st))).congr (fun _ => rfl)

theorem breakFrom (pc : Addr) : ThroughBus (fun s => ((), Machine.breakFrom s pc)) :=
  (bind (g := fun st s => ((), s.takeException (pc + 1#16) (pushedByInstruction st) irqBrkVector)) p
    (fun st => takeException _ (pushedByInstruction st) _)).congr (fun _ => rfl)

theorem callTo (a pc : Addr) : ThroughBus (fun s => ((), Machine.callTo a s pc)) :=
  ((pushAddr (pc - 1#16)).bind (fun _ => withPc (some a))).congr (fun _ => rfl)

/-! Fetching. -/

theorem fetchByte (pc : Addr) : ThroughBus (fun s => s.fetchByte pc) :=
  (busRead pc).bind (fun b => (withPc (some (addrPlus pc 1))).keep b)

theorem fetchOperands (pc : Addr) (f : OpForm) : ThroughBus (fun s => s.fetchOperands pc f) := by
  cases f with
  | f1 i => exact pure i
  | f2 make => exact (fetchByte pc).bind (fun b => pure (make b))
  | f3 make =>
    exact ((fetchByte pc).bind (fun l => (fetchByte (addrPlus pc 1)).bind (fun h => pure (make (w16 l h))))).congr (fun _ => rfl)

/-- The fetch of an instruction; its value is the instruction, or the absent opcode byte. -/
theorem fetchInstr (pc : Addr) : ThroughBus (fun s => match s.fetchInstr pc with
    | .error o => ((Except.error o.1 : Except Byte Instr), o.2)
    | .ok r => ((Except.ok r.1 : Except Byte Instr), r.2)) := by
  have hk (b : Byte) : ThroughBus (fun s => match opRow b with
      | none => ((Except.error b : Except Byte Instr), s)
      | some r => ((Except.ok (s.fetchOperands (addrPlus pc 1) r.form).1 : Except Byte Instr),
          (s.fetchOperands (addrPlus pc 1) r.form).2)) := by
    cases opRow b with
    | none => exact pure (Except.error b)
    | some r => exact (fetchOperands _ r.form).bind (fun i => pure (Except.ok i))
  refine ((fetchByte pc).bind hk).congr (fun s => ?_)
  unfold State.fetchInstr
  cases hr : opRow (s.fetchByte pc).1 <;> simp only [hr]

end ThroughBus

/-- An operand of a mnemonic whose modes name no place in memory. -/
theorem noForm {o : Operand} {l : List Mode} (h : o.mode ∈ l)
    (hl : l.all ([Mode.implicit, .accumulator, .immediate, .relative].contains ·) = true) (f : AddrForm) : o ≠ .memory f := by
  rintro rfl
  have := mem_of_subset h hl
  cases f <;> simp [Operand.mode, AddrForm.mode] at this

/-- The state an instruction leaves: the next state, or the old one where it stops. -/
def stateAfter (i : Instr) (s : State) : State :=
  match exec i s with
  | .next t => t
  | _ => s

/-- Every instruction meets the bus only in its accesses, and so does the part of its cycle count that its operand decides. -/
theorem exec_throughBus (i : Instr) : ThroughBus (fun s => (operandCrosses i.operand s, stateAfter i s)) := by
  simp only [stateAfter, exec_eq_meaning]
  have hmo := mode_mem_modes i
  generalize i.mnemonic = m at hmo
  generalize i.operand = o at hmo
  open ThroughBus in
  have place (g : State → State) (hg : ThroughBus (fun s => (operandCrosses o s, g s))) (he : ∀ s, meaning m o s = .next (g s)) :
      ThroughBus (fun s => (operandCrosses o s, match meaning m o s with | .next t => t | _ => s)) :=
    hg.congr (fun s => by simp only [he])
  open ThroughBus in
  have noPlace (ho : ∀ f, o ≠ .memory f) (g : State → State) (hg : ThroughBus (fun s => ((), g s)))
      (he : ∀ s, meaning m o s = .next (g s)) :
      ThroughBus (fun s => (operandCrosses o s, match meaning m o s with | .next t => t | _ => s)) :=
    place g ((operand ho).bind (fun c => hg.keep c)) he
  cases m
  case lda =>
    obtain ⟨_, hs⟩ := sourceOf_of_mode (mem_of_subset hmo (by decide))
    exact place _ (.loadReg .a hs) (fun s => by simp only [meaning, hs])
  case ldx =>
    obtain ⟨_, hs⟩ := sourceOf_of_mode (mem_of_subset hmo (by decide))
    exact place _ (.loadReg .x hs) (fun s => by simp only [meaning, hs])
  case ldy =>
    obtain ⟨_, hs⟩ := sourceOf_of_mode (mem_of_subset hmo (by decide))
    exact place _ (.loadReg .y hs) (fun s => by simp only [meaning, hs])
  case and =>
    obtain ⟨_, hs⟩ := sourceOf_of_mode (mem_of_subset hmo (by decide))
    exact place _ (.logicA (· &&& ·) hs) (fun s => by simp only [meaning, hs])
  case eor =>
    obtain ⟨_, hs⟩ := sourceOf_of_mode (mem_of_subset hmo (by decide))
    exact place _ (.logicA (· ^^^ ·) hs) (fun s => by simp only [meaning, hs])
  case ora =>
    obtain ⟨_, hs⟩ := sourceOf_of_mode (mem_of_subset hmo (by decide))
    exact place _ (.logicA (· ||| ·) hs) (fun s => by simp only [meaning, hs])
  case adc =>
    obtain ⟨_, hs⟩ := sourceOf_of_mode (mem_of_subset hmo (by decide))
    exact place _ (.addToA id hs) (fun s => by simp only [meaning, hs])
  case sbc =>
    obtain ⟨_, hs⟩ := sourceOf_of_mode (mem_of_subset hmo (by decide))
    exact place _ (.addToA complement hs) (fun s => by simp only [meaning, hs])
  case cmp =>
    obtain ⟨_, hs⟩ := sourceOf_of_mode (mem_of_subset hmo (by decide))
    exact place _ (.compareReg .a hs) (fun s => by simp only [meaning, hs])
  case cpx =>
    obtain ⟨_, hs⟩ := sourceOf_of_mode (mem_of_subset hmo (by decide))
    exact place _ (.compareReg .x hs) (fun s => by simp only [meaning, hs])
  case cpy =>
    obtain ⟨_, hs⟩ := sourceOf_of_mode (mem_of_subset hmo (by decide))
    exact place _ (.compareReg .y hs) (fun s => by simp only [meaning, hs])
  case sta =>
    obtain ⟨f, rfl⟩ := form_of_mode (mem_of_subset hmo (by decide))
    exact place _ (.storeReg .a f) (fun _ => rfl)
  case stx =>
    obtain ⟨f, rfl⟩ := form_of_mode (mem_of_subset hmo (by decide))
    exact place _ (.storeReg .x f) (fun _ => rfl)
  case sty =>
    obtain ⟨f, rfl⟩ := form_of_mode (mem_of_subset hmo (by decide))
    exact place _ (.storeReg .y f) (fun _ => rfl)
  case bit =>
    obtain ⟨f, rfl⟩ := form_of_mode (mem_of_subset hmo (by decide))
    exact place _ (.bitTest f) (fun _ => rfl)
  case inc =>
    obtain ⟨f, rfl⟩ := form_of_mode (mem_of_subset hmo (by decide))
    exact place _ (.stepMemory incByte f) (fun _ => rfl)
  case dec =>
    obtain ⟨f, rfl⟩ := form_of_mode (mem_of_subset hmo (by decide))
    exact place _ (.stepMemory decByte f) (fun _ => rfl)
  case jmp =>
    obtain ⟨f, rfl⟩ := form_of_mode (mem_of_subset hmo (by decide))
    exact place _ (.jumpTo f) (fun _ => rfl)
  case asl =>
    cases o with
    | memory f => exact place _ (.shiftMemory shiftLeft f) (fun _ => rfl)
    | accumulator => exact noPlace (fun _ h => nomatch h) _ (.shiftA shiftLeft) (fun _ => rfl)
    | _ => simp [Operand.mode, Mnemonic.modes] at hmo
  case lsr =>
    cases o with
    | memory f => exact place _ (.shiftMemory shiftRight f) (fun _ => rfl)
    | accumulator => exact noPlace (fun _ h => nomatch h) _ (.shiftA shiftRight) (fun _ => rfl)
    | _ => simp [Operand.mode, Mnemonic.modes] at hmo
  case rol =>
    cases o with
    | memory f => exact place _ (.shiftMemory rotateLeft f) (fun _ => rfl)
    | accumulator => exact noPlace (fun _ h => nomatch h) _ (.shiftA rotateLeft) (fun _ => rfl)
    | _ => simp [Operand.mode, Mnemonic.modes] at hmo
  case ror =>
    cases o with
    | memory f => exact place _ (.shiftMemory rotateRight f) (fun _ => rfl)
    | accumulator => exact noPlace (fun _ h => nomatch h) _ (.shiftA rotateRight) (fun _ => rfl)
    | _ => simp [Operand.mode, Mnemonic.modes] at hmo
  case tax => open ThroughBus in exact noPlace (noForm hmo (by decide)) _ ((reg .a).bind (fun v => result .x v)) (fun _ => rfl)
  case tay => open ThroughBus in exact noPlace (noForm hmo (by decide)) _ ((reg .a).bind (fun v => result .y v)) (fun _ => rfl)
  case txa => open ThroughBus in exact noPlace (noForm hmo (by decide)) _ ((reg .x).bind (fun v => result .a v)) (fun _ => rfl)
  case tya => open ThroughBus in exact noPlace (noForm hmo (by decide)) _ ((reg .y).bind (fun v => result .a v)) (fun _ => rfl)
  case tsx => open ThroughBus in exact noPlace (noForm hmo (by decide)) _ (sp.bind (fun v => result .x v)) (fun _ => rfl)
  case txs => open ThroughBus in exact noPlace (noForm hmo (by decide)) _ ((reg .x).bind (fun v => withSp v)) (fun _ => rfl)
  case pha => open ThroughBus in exact noPlace (noForm hmo (by decide)) _ ((reg .a).bind (fun v => push v)) (fun _ => rfl)
  case php => open ThroughBus in exact noPlace (noForm hmo (by decide)) _ (p.bind (fun v => push (pushedByInstruction v))) (fun _ => rfl)
  case pla => exact noPlace (noForm hmo (by decide)) pullA .pullA (fun _ => rfl)
  case plp => exact noPlace (noForm hmo (by decide)) pullP .pullP (fun _ => rfl)
  case inx => open ThroughBus in exact noPlace (noForm hmo (by decide)) _ ((reg .x).bind (fun v => result .x (incByte v))) (fun _ => rfl)
  case iny => open ThroughBus in exact noPlace (noForm hmo (by decide)) _ ((reg .y).bind (fun v => result .y (incByte v))) (fun _ => rfl)
  case dex => open ThroughBus in exact noPlace (noForm hmo (by decide)) _ ((reg .x).bind (fun v => result .x (decByte v))) (fun _ => rfl)
  case dey => open ThroughBus in exact noPlace (noForm hmo (by decide)) _ ((reg .y).bind (fun v => result .y (decByte v))) (fun _ => rfl)
  case rts => exact noPlace (noForm hmo (by decide)) returnFromCall .returnFromCall (fun _ => rfl)
  case rti => exact noPlace (noForm hmo (by decide)) State.returnFromException .returnFromException (fun _ => rfl)
  case nop => open ThroughBus in exact noPlace (noForm hmo (by decide)) id (pure ()) (fun _ => rfl)
  case clc => open ThroughBus in exact noPlace (noForm hmo (by decide)) _ (.setFlag .c false) (fun _ => rfl)
  case cld => open ThroughBus in exact noPlace (noForm hmo (by decide)) _ (.setFlag .d false) (fun _ => rfl)
  case cli => open ThroughBus in exact noPlace (noForm hmo (by decide)) _ (.setFlag .i false) (fun _ => rfl)
  case clv => open ThroughBus in exact noPlace (noForm hmo (by decide)) _ (.setFlag .v false) (fun _ => rfl)
  case sec => open ThroughBus in exact noPlace (noForm hmo (by decide)) _ (.setFlag .c true) (fun _ => rfl)
  case sed => open ThroughBus in exact noPlace (noForm hmo (by decide)) _ (.setFlag .d true) (fun _ => rfl)
  case sei => open ThroughBus in exact noPlace (noForm hmo (by decide)) _ (.setFlag .i true) (fun _ => rfl)
  case brk =>
    have h := ThroughBus.withPcValue .breakFrom
    exact (ThroughBus.operand (noForm hmo (by decide))).bind (fun c => h.keep c)
  case jsr =>
    obtain ⟨f, rfl⟩ := form_of_mode (mem_of_subset hmo (by decide))
    cases f with
    | absolute a => exact ((ThroughBus.withPcValue (fun pc => .callTo a pc)).keep false).congr (fun _ => rfl)
    | _ => simp [Operand.mode, AddrForm.mode, Mnemonic.modes] at hmo
  all_goals
    have ho := noForm hmo (by decide)
    cases o with
    | memory f => exact absurd rfl (ho f)
    | relative off =>
      exact ((ThroughBus.operand ho).bind
        (fun c => (ThroughBus.withPcValue (fun pc => .branchIf _ off pc)).keep c)).congr (fun _ => rfl)
    | _ => simp [Operand.mode, Mnemonic.modes] at hmo

end Sys2Proof.Machine
end

