-- ==== Sys2Proof/Laws/PerInstr.lean ====
section
/-! SUPPORT. The family TableRow: the opcode table has the row of every constructor of Instr. -/

namespace Sys2Proof.Laws.TableRow

set_option Elab.async false

/-- What the opcode table says of an opcode byte: mnemonic, mode, length, and that the entry is well formed. -/
def facts (op : Byte) : Option (Mnemonic × Mode × Nat × Bool) :=
  (opTab op).map (fun e => (e.mnem, e.mode, e.len, e.wellFormed))

/-- The entry of the instruction's opcode byte names its mnemonic and its mode, is well formed, and its length is the number
of bytes the encoder writes (30_encoding.md R81, R83, R107); the instruction is well formed. -/
def Statement (i : Instr) : Prop :=
  facts i.opcode = some (i.mnemonic, i.mode, (encode i).length, true) ∧ i.wellFormed = true

theorem ldaImm (v : Byte) : Statement (.ldaImm v) :=
  ⟨(rfl : facts 0xA9#8 = some (.lda, .immediate, 2, true)), rfl⟩
theorem ldaZp (b : Byte) : Statement (.ldaZp b) :=
  ⟨(rfl : facts 0xA5#8 = some (.lda, .zeroPage, 2, true)), rfl⟩
theorem ldaZpX (b : Byte) : Statement (.ldaZpX b) :=
  ⟨(rfl : facts 0xB5#8 = some (.lda, .zeroPageX, 2, true)), rfl⟩
theorem ldaAbs (addr : Addr) : Statement (.ldaAbs addr) :=
  ⟨(rfl : facts 0xAD#8 = some (.lda, .absolute, 3, true)), rfl⟩
theorem ldaAbsX (addr : Addr) : Statement (.ldaAbsX addr) :=
  ⟨(rfl : facts 0xBD#8 = some (.lda, .absoluteX, 3, true)), rfl⟩
theorem ldaAbsY (addr : Addr) : Statement (.ldaAbsY addr) :=
  ⟨(rfl : facts 0xB9#8 = some (.lda, .absoluteY, 3, true)), rfl⟩
theorem ldaIndX (b : Byte) : Statement (.ldaIndX b) :=
  ⟨(rfl : facts 0xA1#8 = some (.lda, .indirectX, 2, true)), rfl⟩
theorem ldaIndY (b : Byte) : Statement (.ldaIndY b) :=
  ⟨(rfl : facts 0xB1#8 = some (.lda, .indirectY, 2, true)), rfl⟩
theorem ldxImm (v : Byte) : Statement (.ldxImm v) :=
  ⟨(rfl : facts 0xA2#8 = some (.ldx, .immediate, 2, true)), rfl⟩
theorem ldxZp (b : Byte) : Statement (.ldxZp b) :=
  ⟨(rfl : facts 0xA6#8 = some (.ldx, .zeroPage, 2, true)), rfl⟩
theorem ldxZpY (b : Byte) : Statement (.ldxZpY b) :=
  ⟨(rfl : facts 0xB6#8 = some (.ldx, .zeroPageY, 2, true)), rfl⟩
theorem ldxAbs (addr : Addr) : Statement (.ldxAbs addr) :=
  ⟨(rfl : facts 0xAE#8 = some (.ldx, .absolute, 3, true)), rfl⟩
theorem ldxAbsY (addr : Addr) : Statement (.ldxAbsY addr) :=
  ⟨(rfl : facts 0xBE#8 = some (.ldx, .absoluteY, 3, true)), rfl⟩
theorem ldyImm (v : Byte) : Statement (.ldyImm v) :=
  ⟨(rfl : facts 0xA0#8 = some (.ldy, .immediate, 2, true)), rfl⟩
theorem ldyZp (b : Byte) : Statement (.ldyZp b) :=
  ⟨(rfl : facts 0xA4#8 = some (.ldy, .zeroPage, 2, true)), rfl⟩
theorem ldyZpX (b : Byte) : Statement (.ldyZpX b) :=
  ⟨(rfl : facts 0xB4#8 = some (.ldy, .zeroPageX, 2, true)), rfl⟩
theorem ldyAbs (addr : Addr) : Statement (.ldyAbs addr) :=
  ⟨(rfl : facts 0xAC#8 = some (.ldy, .absolute, 3, true)), rfl⟩
theorem ldyAbsX (addr : Addr) : Statement (.ldyAbsX addr) :=
  ⟨(rfl : facts 0xBC#8 = some (.ldy, .absoluteX, 3, true)), rfl⟩
theorem staZp (b : Byte) : Statement (.staZp b) :=
  ⟨(rfl : facts 0x85#8 = some (.sta, .zeroPage, 2, true)), rfl⟩
theorem staZpX (b : Byte) : Statement (.staZpX b) :=
  ⟨(rfl : facts 0x95#8 = some (.sta, .zeroPageX, 2, true)), rfl⟩
theorem staAbs (addr : Addr) : Statement (.staAbs addr) :=
  ⟨(rfl : facts 0x8D#8 = some (.sta, .absolute, 3, true)), rfl⟩
theorem staAbsX (addr : Addr) : Statement (.staAbsX addr) :=
  ⟨(rfl : facts 0x9D#8 = some (.sta, .absoluteX, 3, true)), rfl⟩
theorem staAbsY (addr : Addr) : Statement (.staAbsY addr) :=
  ⟨(rfl : facts 0x99#8 = some (.sta, .absoluteY, 3, true)), rfl⟩
theorem staIndX (b : Byte) : Statement (.staIndX b) :=
  ⟨(rfl : facts 0x81#8 = some (.sta, .indirectX, 2, true)), rfl⟩
theorem staIndY (b : Byte) : Statement (.staIndY b) :=
  ⟨(rfl : facts 0x91#8 = some (.sta, .indirectY, 2, true)), rfl⟩
theorem stxZp (b : Byte) : Statement (.stxZp b) :=
  ⟨(rfl : facts 0x86#8 = some (.stx, .zeroPage, 2, true)), rfl⟩
theorem stxZpY (b : Byte) : Statement (.stxZpY b) :=
  ⟨(rfl : facts 0x96#8 = some (.stx, .zeroPageY, 2, true)), rfl⟩
theorem stxAbs (addr : Addr) : Statement (.stxAbs addr) :=
  ⟨(rfl : facts 0x8E#8 = some (.stx, .absolute, 3, true)), rfl⟩
theorem styZp (b : Byte) : Statement (.styZp b) :=
  ⟨(rfl : facts 0x84#8 = some (.sty, .zeroPage, 2, true)), rfl⟩
theorem styZpX (b : Byte) : Statement (.styZpX b) :=
  ⟨(rfl : facts 0x94#8 = some (.sty, .zeroPageX, 2, true)), rfl⟩
theorem styAbs (addr : Addr) : Statement (.styAbs addr) :=
  ⟨(rfl : facts 0x8C#8 = some (.sty, .absolute, 3, true)), rfl⟩
theorem tax : Statement .tax :=
  ⟨(rfl : facts 0xAA#8 = some (.tax, .implicit, 1, true)), rfl⟩
theorem tay : Statement .tay :=
  ⟨(rfl : facts 0xA8#8 = some (.tay, .implicit, 1, true)), rfl⟩
theorem txa : Statement .txa :=
  ⟨(rfl : facts 0x8A#8 = some (.txa, .implicit, 1, true)), rfl⟩
theorem tya : Statement .tya :=
  ⟨(rfl : facts 0x98#8 = some (.tya, .implicit, 1, true)), rfl⟩
theorem tsx : Statement .tsx :=
  ⟨(rfl : facts 0xBA#8 = some (.tsx, .implicit, 1, true)), rfl⟩
theorem txs : Statement .txs :=
  ⟨(rfl : facts 0x9A#8 = some (.txs, .implicit, 1, true)), rfl⟩
theorem pha : Statement .pha :=
  ⟨(rfl : facts 0x48#8 = some (.pha, .implicit, 1, true)), rfl⟩
theorem php : Statement .php :=
  ⟨(rfl : facts 0x08#8 = some (.php, .implicit, 1, true)), rfl⟩
theorem pla : Statement .pla :=
  ⟨(rfl : facts 0x68#8 = some (.pla, .implicit, 1, true)), rfl⟩
theorem plp : Statement .plp :=
  ⟨(rfl : facts 0x28#8 = some (.plp, .implicit, 1, true)), rfl⟩
theorem andImm (v : Byte) : Statement (.andImm v) :=
  ⟨(rfl : facts 0x29#8 = some (.and, .immediate, 2, true)), rfl⟩
theorem andZp (b : Byte) : Statement (.andZp b) :=
  ⟨(rfl : facts 0x25#8 = some (.and, .zeroPage, 2, true)), rfl⟩
theorem andZpX (b : Byte) : Statement (.andZpX b) :=
  ⟨(rfl : facts 0x35#8 = some (.and, .zeroPageX, 2, true)), rfl⟩
theorem andAbs (addr : Addr) : Statement (.andAbs addr) :=
  ⟨(rfl : facts 0x2D#8 = some (.and, .absolute, 3, true)), rfl⟩
theorem andAbsX (addr : Addr) : Statement (.andAbsX addr) :=
  ⟨(rfl : facts 0x3D#8 = some (.and, .absoluteX, 3, true)), rfl⟩
theorem andAbsY (addr : Addr) : Statement (.andAbsY addr) :=
  ⟨(rfl : facts 0x39#8 = some (.and, .absoluteY, 3, true)), rfl⟩
theorem andIndX (b : Byte) : Statement (.andIndX b) :=
  ⟨(rfl : facts 0x21#8 = some (.and, .indirectX, 2, true)), rfl⟩
theorem andIndY (b : Byte) : Statement (.andIndY b) :=
  ⟨(rfl : facts 0x31#8 = some (.and, .indirectY, 2, true)), rfl⟩
theorem eorImm (v : Byte) : Statement (.eorImm v) :=
  ⟨(rfl : facts 0x49#8 = some (.eor, .immediate, 2, true)), rfl⟩
theorem eorZp (b : Byte) : Statement (.eorZp b) :=
  ⟨(rfl : facts 0x45#8 = some (.eor, .zeroPage, 2, true)), rfl⟩
theorem eorZpX (b : Byte) : Statement (.eorZpX b) :=
  ⟨(rfl : facts 0x55#8 = some (.eor, .zeroPageX, 2, true)), rfl⟩
theorem eorAbs (addr : Addr) : Statement (.eorAbs addr) :=
  ⟨(rfl : facts 0x4D#8 = some (.eor, .absolute, 3, true)), rfl⟩
theorem eorAbsX (addr : Addr) : Statement (.eorAbsX addr) :=
  ⟨(rfl : facts 0x5D#8 = some (.eor, .absoluteX, 3, true)), rfl⟩
theorem eorAbsY (addr : Addr) : Statement (.eorAbsY addr) :=
  ⟨(rfl : facts 0x59#8 = some (.eor, .absoluteY, 3, true)), rfl⟩
theorem eorIndX (b : Byte) : Statement (.eorIndX b) :=
  ⟨(rfl : facts 0x41#8 = some (.eor, .indirectX, 2, true)), rfl⟩
theorem eorIndY (b : Byte) : Statement (.eorIndY b) :=
  ⟨(rfl : facts 0x51#8 = some (.eor, .indirectY, 2, true)), rfl⟩
theorem oraImm (v : Byte) : Statement (.oraImm v) :=
  ⟨(rfl : facts 0x09#8 = some (.ora, .immediate, 2, true)), rfl⟩
theorem oraZp (b : Byte) : Statement (.oraZp b) :=
  ⟨(rfl : facts 0x05#8 = some (.ora, .zeroPage, 2, true)), rfl⟩
theorem oraZpX (b : Byte) : Statement (.oraZpX b) :=
  ⟨(rfl : facts 0x15#8 = some (.ora, .zeroPageX, 2, true)), rfl⟩
theorem oraAbs (addr : Addr) : Statement (.oraAbs addr) :=
  ⟨(rfl : facts 0x0D#8 = some (.ora, .absolute, 3, true)), rfl⟩
theorem oraAbsX (addr : Addr) : Statement (.oraAbsX addr) :=
  ⟨(rfl : facts 0x1D#8 = some (.ora, .absoluteX, 3, true)), rfl⟩
theorem oraAbsY (addr : Addr) : Statement (.oraAbsY addr) :=
  ⟨(rfl : facts 0x19#8 = some (.ora, .absoluteY, 3, true)), rfl⟩
theorem oraIndX (b : Byte) : Statement (.oraIndX b) :=
  ⟨(rfl : facts 0x01#8 = some (.ora, .indirectX, 2, true)), rfl⟩
theorem oraIndY (b : Byte) : Statement (.oraIndY b) :=
  ⟨(rfl : facts 0x11#8 = some (.ora, .indirectY, 2, true)), rfl⟩
theorem bitZp (b : Byte) : Statement (.bitZp b) :=
  ⟨(rfl : facts 0x24#8 = some (.bit, .zeroPage, 2, true)), rfl⟩
theorem bitAbs (addr : Addr) : Statement (.bitAbs addr) :=
  ⟨(rfl : facts 0x2C#8 = some (.bit, .absolute, 3, true)), rfl⟩
theorem adcImm (v : Byte) : Statement (.adcImm v) :=
  ⟨(rfl : facts 0x69#8 = some (.adc, .immediate, 2, true)), rfl⟩
theorem adcZp (b : Byte) : Statement (.adcZp b) :=
  ⟨(rfl : facts 0x65#8 = some (.adc, .zeroPage, 2, true)), rfl⟩
theorem adcZpX (b : Byte) : Statement (.adcZpX b) :=
  ⟨(rfl : facts 0x75#8 = some (.adc, .zeroPageX, 2, true)), rfl⟩
theorem adcAbs (addr : Addr) : Statement (.adcAbs addr) :=
  ⟨(rfl : facts 0x6D#8 = some (.adc, .absolute, 3, true)), rfl⟩
theorem adcAbsX (addr : Addr) : Statement (.adcAbsX addr) :=
  ⟨(rfl : facts 0x7D#8 = some (.adc, .absoluteX, 3, true)), rfl⟩
theorem adcAbsY (addr : Addr) : Statement (.adcAbsY addr) :=
  ⟨(rfl : facts 0x79#8 = some (.adc, .absoluteY, 3, true)), rfl⟩
theorem adcIndX (b : Byte) : Statement (.adcIndX b) :=
  ⟨(rfl : facts 0x61#8 = some (.adc, .indirectX, 2, true)), rfl⟩
theorem adcIndY (b : Byte) : Statement (.adcIndY b) :=
  ⟨(rfl : facts 0x71#8 = some (.adc, .indirectY, 2, true)), rfl⟩
theorem sbcImm (v : Byte) : Statement (.sbcImm v) :=
  ⟨(rfl : facts 0xE9#8 = some (.sbc, .immediate, 2, true)), rfl⟩
theorem sbcZp (b : Byte) : Statement (.sbcZp b) :=
  ⟨(rfl : facts 0xE5#8 = some (.sbc, .zeroPage, 2, true)), rfl⟩
theorem sbcZpX (b : Byte) : Statement (.sbcZpX b) :=
  ⟨(rfl : facts 0xF5#8 = some (.sbc, .zeroPageX, 2, true)), rfl⟩
theorem sbcAbs (addr : Addr) : Statement (.sbcAbs addr) :=
  ⟨(rfl : facts 0xED#8 = some (.sbc, .absolute, 3, true)), rfl⟩
theorem sbcAbsX (addr : Addr) : Statement (.sbcAbsX addr) :=
  ⟨(rfl : facts 0xFD#8 = some (.sbc, .absoluteX, 3, true)), rfl⟩
theorem sbcAbsY (addr : Addr) : Statement (.sbcAbsY addr) :=
  ⟨(rfl : facts 0xF9#8 = some (.sbc, .absoluteY, 3, true)), rfl⟩
theorem sbcIndX (b : Byte) : Statement (.sbcIndX b) :=
  ⟨(rfl : facts 0xE1#8 = some (.sbc, .indirectX, 2, true)), rfl⟩
theorem sbcIndY (b : Byte) : Statement (.sbcIndY b) :=
  ⟨(rfl : facts 0xF1#8 = some (.sbc, .indirectY, 2, true)), rfl⟩
theorem cmpImm (v : Byte) : Statement (.cmpImm v) :=
  ⟨(rfl : facts 0xC9#8 = some (.cmp, .immediate, 2, true)), rfl⟩
theorem cmpZp (b : Byte) : Statement (.cmpZp b) :=
  ⟨(rfl : facts 0xC5#8 = some (.cmp, .zeroPage, 2, true)), rfl⟩
theorem cmpZpX (b : Byte) : Statement (.cmpZpX b) :=
  ⟨(rfl : facts 0xD5#8 = some (.cmp, .zeroPageX, 2, true)), rfl⟩
theorem cmpAbs (addr : Addr) : Statement (.cmpAbs addr) :=
  ⟨(rfl : facts 0xCD#8 = some (.cmp, .absolute, 3, true)), rfl⟩
theorem cmpAbsX (addr : Addr) : Statement (.cmpAbsX addr) :=
  ⟨(rfl : facts 0xDD#8 = some (.cmp, .absoluteX, 3, true)), rfl⟩
theorem cmpAbsY (addr : Addr) : Statement (.cmpAbsY addr) :=
  ⟨(rfl : facts 0xD9#8 = some (.cmp, .absoluteY, 3, true)), rfl⟩
theorem cmpIndX (b : Byte) : Statement (.cmpIndX b) :=
  ⟨(rfl : facts 0xC1#8 = some (.cmp, .indirectX, 2, true)), rfl⟩
theorem cmpIndY (b : Byte) : Statement (.cmpIndY b) :=
  ⟨(rfl : facts 0xD1#8 = some (.cmp, .indirectY, 2, true)), rfl⟩
theorem cpxImm (v : Byte) : Statement (.cpxImm v) :=
  ⟨(rfl : facts 0xE0#8 = some (.cpx, .immediate, 2, true)), rfl⟩
theorem cpxZp (b : Byte) : Statement (.cpxZp b) :=
  ⟨(rfl : facts 0xE4#8 = some (.cpx, .zeroPage, 2, true)), rfl⟩
theorem cpxAbs (addr : Addr) : Statement (.cpxAbs addr) :=
  ⟨(rfl : facts 0xEC#8 = some (.cpx, .absolute, 3, true)), rfl⟩
theorem cpyImm (v : Byte) : Statement (.cpyImm v) :=
  ⟨(rfl : facts 0xC0#8 = some (.cpy, .immediate, 2, true)), rfl⟩
theorem cpyZp (b : Byte) : Statement (.cpyZp b) :=
  ⟨(rfl : facts 0xC4#8 = some (.cpy, .zeroPage, 2, true)), rfl⟩
theorem cpyAbs (addr : Addr) : Statement (.cpyAbs addr) :=
  ⟨(rfl : facts 0xCC#8 = some (.cpy, .absolute, 3, true)), rfl⟩
theorem incZp (b : Byte) : Statement (.incZp b) :=
  ⟨(rfl : facts 0xE6#8 = some (.inc, .zeroPage, 2, true)), rfl⟩
theorem incZpX (b : Byte) : Statement (.incZpX b) :=
  ⟨(rfl : facts 0xF6#8 = some (.inc, .zeroPageX, 2, true)), rfl⟩
theorem incAbs (addr : Addr) : Statement (.incAbs addr) :=
  ⟨(rfl : facts 0xEE#8 = some (.inc, .absolute, 3, true)), rfl⟩
theorem incAbsX (addr : Addr) : Statement (.incAbsX addr) :=
  ⟨(rfl : facts 0xFE#8 = some (.inc, .absoluteX, 3, true)), rfl⟩
theorem decZp (b : Byte) : Statement (.decZp b) :=
  ⟨(rfl : facts 0xC6#8 = some (.dec, .zeroPage, 2, true)), rfl⟩
theorem decZpX (b : Byte) : Statement (.decZpX b) :=
  ⟨(rfl : facts 0xD6#8 = some (.dec, .zeroPageX, 2, true)), rfl⟩
theorem decAbs (addr : Addr) : Statement (.decAbs addr) :=
  ⟨(rfl : facts 0xCE#8 = some (.dec, .absolute, 3, true)), rfl⟩
theorem decAbsX (addr : Addr) : Statement (.decAbsX addr) :=
  ⟨(rfl : facts 0xDE#8 = some (.dec, .absoluteX, 3, true)), rfl⟩
theorem inx : Statement .inx :=
  ⟨(rfl : facts 0xE8#8 = some (.inx, .implicit, 1, true)), rfl⟩
theorem iny : Statement .iny :=
  ⟨(rfl : facts 0xC8#8 = some (.iny, .implicit, 1, true)), rfl⟩
theorem dex : Statement .dex :=
  ⟨(rfl : facts 0xCA#8 = some (.dex, .implicit, 1, true)), rfl⟩
theorem dey : Statement .dey :=
  ⟨(rfl : facts 0x88#8 = some (.dey, .implicit, 1, true)), rfl⟩
theorem aslAcc : Statement .aslAcc :=
  ⟨(rfl : facts 0x0A#8 = some (.asl, .accumulator, 1, true)), rfl⟩
theorem aslZp (b : Byte) : Statement (.aslZp b) :=
  ⟨(rfl : facts 0x06#8 = some (.asl, .zeroPage, 2, true)), rfl⟩
theorem aslZpX (b : Byte) : Statement (.aslZpX b) :=
  ⟨(rfl : facts 0x16#8 = some (.asl, .zeroPageX, 2, true)), rfl⟩
theorem aslAbs (addr : Addr) : Statement (.aslAbs addr) :=
  ⟨(rfl : facts 0x0E#8 = some (.asl, .absolute, 3, true)), rfl⟩
theorem aslAbsX (addr : Addr) : Statement (.aslAbsX addr) :=
  ⟨(rfl : facts 0x1E#8 = some (.asl, .absoluteX, 3, true)), rfl⟩
theorem lsrAcc : Statement .lsrAcc :=
  ⟨(rfl : facts 0x4A#8 = some (.lsr, .accumulator, 1, true)), rfl⟩
theorem lsrZp (b : Byte) : Statement (.lsrZp b) :=
  ⟨(rfl : facts 0x46#8 = some (.lsr, .zeroPage, 2, true)), rfl⟩
theorem lsrZpX (b : Byte) : Statement (.lsrZpX b) :=
  ⟨(rfl : facts 0x56#8 = some (.lsr, .zeroPageX, 2, true)), rfl⟩
theorem lsrAbs (addr : Addr) : Statement (.lsrAbs addr) :=
  ⟨(rfl : facts 0x4E#8 = some (.lsr, .absolute, 3, true)), rfl⟩
theorem lsrAbsX (addr : Addr) : Statement (.lsrAbsX addr) :=
  ⟨(rfl : facts 0x5E#8 = some (.lsr, .absoluteX, 3, true)), rfl⟩
theorem rolAcc : Statement .rolAcc :=
  ⟨(rfl : facts 0x2A#8 = some (.rol, .accumulator, 1, true)), rfl⟩
theorem rolZp (b : Byte) : Statement (.rolZp b) :=
  ⟨(rfl : facts 0x26#8 = some (.rol, .zeroPage, 2, true)), rfl⟩
theorem rolZpX (b : Byte) : Statement (.rolZpX b) :=
  ⟨(rfl : facts 0x36#8 = some (.rol, .zeroPageX, 2, true)), rfl⟩
theorem rolAbs (addr : Addr) : Statement (.rolAbs addr) :=
  ⟨(rfl : facts 0x2E#8 = some (.rol, .absolute, 3, true)), rfl⟩
theorem rolAbsX (addr : Addr) : Statement (.rolAbsX addr) :=
  ⟨(rfl : facts 0x3E#8 = some (.rol, .absoluteX, 3, true)), rfl⟩
theorem rorAcc : Statement .rorAcc :=
  ⟨(rfl : facts 0x6A#8 = some (.ror, .accumulator, 1, true)), rfl⟩
theorem rorZp (b : Byte) : Statement (.rorZp b) :=
  ⟨(rfl : facts 0x66#8 = some (.ror, .zeroPage, 2, true)), rfl⟩
theorem rorZpX (b : Byte) : Statement (.rorZpX b) :=
  ⟨(rfl : facts 0x76#8 = some (.ror, .zeroPageX, 2, true)), rfl⟩
theorem rorAbs (addr : Addr) : Statement (.rorAbs addr) :=
  ⟨(rfl : facts 0x6E#8 = some (.ror, .absolute, 3, true)), rfl⟩
theorem rorAbsX (addr : Addr) : Statement (.rorAbsX addr) :=
  ⟨(rfl : facts 0x7E#8 = some (.ror, .absoluteX, 3, true)), rfl⟩
theorem jmpAbs (addr : Addr) : Statement (.jmpAbs addr) :=
  ⟨(rfl : facts 0x4C#8 = some (.jmp, .absolute, 3, true)), rfl⟩
theorem jmpInd (ptr : Addr) : Statement (.jmpInd ptr) :=
  ⟨(rfl : facts 0x6C#8 = some (.jmp, .indirect, 3, true)), rfl⟩
theorem jsrAbs (addr : Addr) : Statement (.jsrAbs addr) :=
  ⟨(rfl : facts 0x20#8 = some (.jsr, .absolute, 3, true)), rfl⟩
theorem rts : Statement .rts :=
  ⟨(rfl : facts 0x60#8 = some (.rts, .implicit, 1, true)), rfl⟩
theorem bcc (off : Byte) : Statement (.bcc off) :=
  ⟨(rfl : facts 0x90#8 = some (.bcc, .relative, 2, true)), rfl⟩
theorem bcs (off : Byte) : Statement (.bcs off) :=
  ⟨(rfl : facts 0xB0#8 = some (.bcs, .relative, 2, true)), rfl⟩
theorem beq (off : Byte) : Statement (.beq off) :=
  ⟨(rfl : facts 0xF0#8 = some (.beq, .relative, 2, true)), rfl⟩
theorem bne (off : Byte) : Statement (.bne off) :=
  ⟨(rfl : facts 0xD0#8 = some (.bne, .relative, 2, true)), rfl⟩
theorem bmi (off : Byte) : Statement (.bmi off) :=
  ⟨(rfl : facts 0x30#8 = some (.bmi, .relative, 2, true)), rfl⟩
theorem bpl (off : Byte) : Statement (.bpl off) :=
  ⟨(rfl : facts 0x10#8 = some (.bpl, .relative, 2, true)), rfl⟩
theorem bvc (off : Byte) : Statement (.bvc off) :=
  ⟨(rfl : facts 0x50#8 = some (.bvc, .relative, 2, true)), rfl⟩
theorem bvs (off : Byte) : Statement (.bvs off) :=
  ⟨(rfl : facts 0x70#8 = some (.bvs, .relative, 2, true)), rfl⟩
theorem clc : Statement .clc :=
  ⟨(rfl : facts 0x18#8 = some (.clc, .implicit, 1, true)), rfl⟩
theorem cld : Statement .cld :=
  ⟨(rfl : facts 0xD8#8 = some (.cld, .implicit, 1, true)), rfl⟩
theorem cli : Statement .cli :=
  ⟨(rfl : facts 0x58#8 = some (.cli, .implicit, 1, true)), rfl⟩
theorem clv : Statement .clv :=
  ⟨(rfl : facts 0xB8#8 = some (.clv, .implicit, 1, true)), rfl⟩
theorem sec : Statement .sec :=
  ⟨(rfl : facts 0x38#8 = some (.sec, .implicit, 1, true)), rfl⟩
theorem sed : Statement .sed :=
  ⟨(rfl : facts 0xF8#8 = some (.sed, .implicit, 1, true)), rfl⟩
theorem sei : Statement .sei :=
  ⟨(rfl : facts 0x78#8 = some (.sei, .implicit, 1, true)), rfl⟩
theorem brk : Statement .brk :=
  ⟨(rfl : facts 0x00#8 = some (.brk, .implicit, 1, true)), rfl⟩
theorem rti : Statement .rti :=
  ⟨(rfl : facts 0x40#8 = some (.rti, .implicit, 1, true)), rfl⟩
theorem nop : Statement .nop :=
  ⟨(rfl : facts 0xEA#8 = some (.nop, .implicit, 1, true)), rfl⟩

end Sys2Proof.Laws.TableRow
end

