-- ==== Sys2Proof/Tests/Slice0.lean ====
section
/-! SUPPORT. Tests: ill-formed terms that the checks refuse, words written out from the opcode table of the spec, single
steps of 95_test_vectors.md, and, for every obligation with hypotheses, a concrete state that meets them together. -/

namespace Sys2Proof.Tests

set_option Elab.async false

open Sys2Proof.Machine Sys2Proof.Claims

/-! ## The checks of WellFormed.lean and `wellFormedBytes` refuse

The type Instr leaves room for no ill-formed instruction, so its check is shown on the pairs it looks at. -/

/-- STA has no Immediate form (40_load_store.md R134). -/
theorem test_refuses_store_immediate : Mnemonic.sta.modes.contains .immediate = false := by decide

/-- STX has no ZeroPageX form (40_load_store.md R135). -/
theorem test_refuses_stx_zero_page_x : Mnemonic.stx.modes.contains .zeroPageX = false := by decide

/-- Only JMP has an Indirect form (30_encoding.md R100). -/
theorem test_refuses_jsr_indirect : Mnemonic.jsr.modes.contains .indirect = false := by decide

theorem test_accepts_an_entry : (OpEntry.mk .lda .absoluteX 3 4 true).wellFormed = true := by decide

/-- A mode the mnemonic has no form in. -/
theorem test_refuses_entry_mode : (OpEntry.mk .sta .immediate 2 2 false).wellFormed = false := by decide

/-- A length that is not one more than the operand bytes of the mode (30_encoding.md R83). -/
theorem test_refuses_entry_length : (OpEntry.mk .lda .absolute 2 4 false).wellFormed = false := by decide

/-- A store marked with a page penalty (30_encoding.md R105). -/
theorem test_refuses_entry_penalty_of_a_store : (OpEntry.mk .sta .absoluteX 3 5 true).wellFormed = false := by decide

/-- A crossing read form without its page penalty (30_encoding.md R105). -/
theorem test_refuses_entry_without_penalty : (OpEntry.mk .lda .indirectY 2 5 false).wellFormed = false := by decide

theorem test_accepts_bytes : wellFormedBytes [0xAD#8, 0x34#8, 0x12#8] = true := by decide +kernel
theorem test_refuses_no_bytes : wellFormedBytes [] = false := by decide
theorem test_refuses_absent_opcode : wellFormedBytes [0x02#8] = false := by decide +kernel
theorem test_refuses_short_bytes : wellFormedBytes [0xAD#8, 0x34#8] = false := by decide +kernel
theorem test_refuses_long_bytes : wellFormedBytes [0xEA#8, 0xEA#8] = false := by decide +kernel

/-- The decoder rejects by name. -/
theorem test_decode_names_the_absent_opcode :
    decode [0x1A#8, 0x00#8] = .error (.unsupportedOpcode 0x1A#8) ∧ decode [0xA9#8] = .error .truncated := ⟨rfl, rfl⟩

/-! ## Decoding: for every constructor the opcode byte of spec/opcode_table.json (30_encoding.md R107), followed by the
operand bytes 34 12, of which a two-byte form takes the first and a three-byte form both, the low byte first -/

/-- What the decoder reads from an opcode byte followed by 34 12. -/
def read (op : Byte) : Option Instr := decode3 op 0x34#8 0x12#8

theorem test_decode_load :
  read 0xA1#8 = some (.ldaIndX 0x34#8) ∧
  read 0xA5#8 = some (.ldaZp 0x34#8) ∧
  read 0xA9#8 = some (.ldaImm 0x34#8) ∧
  read 0xAD#8 = some (.ldaAbs 0x1234#16) ∧
  read 0xB1#8 = some (.ldaIndY 0x34#8) ∧
  read 0xB5#8 = some (.ldaZpX 0x34#8) ∧
  read 0xB9#8 = some (.ldaAbsY 0x1234#16) ∧
  read 0xBD#8 = some (.ldaAbsX 0x1234#16) ∧
  read 0xA2#8 = some (.ldxImm 0x34#8) ∧
  read 0xA6#8 = some (.ldxZp 0x34#8) ∧
  read 0xAE#8 = some (.ldxAbs 0x1234#16) ∧
  read 0xB6#8 = some (.ldxZpY 0x34#8) ∧
  read 0xBE#8 = some (.ldxAbsY 0x1234#16) ∧
  read 0xA0#8 = some (.ldyImm 0x34#8) ∧
  read 0xA4#8 = some (.ldyZp 0x34#8) ∧
  read 0xAC#8 = some (.ldyAbs 0x1234#16) ∧
  read 0xB4#8 = some (.ldyZpX 0x34#8) ∧
  read 0xBC#8 = some (.ldyAbsX 0x1234#16) := by
  decide +kernel

theorem test_decode_store :
  read 0x81#8 = some (.staIndX 0x34#8) ∧
  read 0x85#8 = some (.staZp 0x34#8) ∧
  read 0x8D#8 = some (.staAbs 0x1234#16) ∧
  read 0x91#8 = some (.staIndY 0x34#8) ∧
  read 0x95#8 = some (.staZpX 0x34#8) ∧
  read 0x99#8 = some (.staAbsY 0x1234#16) ∧
  read 0x9D#8 = some (.staAbsX 0x1234#16) ∧
  read 0x86#8 = some (.stxZp 0x34#8) ∧
  read 0x8E#8 = some (.stxAbs 0x1234#16) ∧
  read 0x96#8 = some (.stxZpY 0x34#8) ∧
  read 0x84#8 = some (.styZp 0x34#8) ∧
  read 0x8C#8 = some (.styAbs 0x1234#16) ∧
  read 0x94#8 = some (.styZpX 0x34#8) := by
  decide +kernel

theorem test_decode_transfer :
  read 0xAA#8 = some .tax ∧
  read 0xA8#8 = some .tay ∧
  read 0x8A#8 = some .txa ∧
  read 0x98#8 = some .tya ∧
  read 0xBA#8 = some .tsx ∧
  read 0x9A#8 = some .txs := by
  decide +kernel

theorem test_decode_stack :
  read 0x48#8 = some .pha ∧
  read 0x08#8 = some .php ∧
  read 0x68#8 = some .pla ∧
  read 0x28#8 = some .plp := by
  decide +kernel

theorem test_decode_logic :
  read 0x21#8 = some (.andIndX 0x34#8) ∧
  read 0x25#8 = some (.andZp 0x34#8) ∧
  read 0x29#8 = some (.andImm 0x34#8) ∧
  read 0x2D#8 = some (.andAbs 0x1234#16) ∧
  read 0x31#8 = some (.andIndY 0x34#8) ∧
  read 0x35#8 = some (.andZpX 0x34#8) ∧
  read 0x39#8 = some (.andAbsY 0x1234#16) ∧
  read 0x3D#8 = some (.andAbsX 0x1234#16) ∧
  read 0x41#8 = some (.eorIndX 0x34#8) ∧
  read 0x45#8 = some (.eorZp 0x34#8) ∧
  read 0x49#8 = some (.eorImm 0x34#8) ∧
  read 0x4D#8 = some (.eorAbs 0x1234#16) ∧
  read 0x51#8 = some (.eorIndY 0x34#8) ∧
  read 0x55#8 = some (.eorZpX 0x34#8) ∧
  read 0x59#8 = some (.eorAbsY 0x1234#16) ∧
  read 0x5D#8 = some (.eorAbsX 0x1234#16) ∧
  read 0x01#8 = some (.oraIndX 0x34#8) ∧
  read 0x05#8 = some (.oraZp 0x34#8) ∧
  read 0x09#8 = some (.oraImm 0x34#8) ∧
  read 0x0D#8 = some (.oraAbs 0x1234#16) ∧
  read 0x11#8 = some (.oraIndY 0x34#8) ∧
  read 0x15#8 = some (.oraZpX 0x34#8) ∧
  read 0x19#8 = some (.oraAbsY 0x1234#16) ∧
  read 0x1D#8 = some (.oraAbsX 0x1234#16) ∧
  read 0x24#8 = some (.bitZp 0x34#8) ∧
  read 0x2C#8 = some (.bitAbs 0x1234#16) := by
  decide +kernel

theorem test_decode_arithmetic :
  read 0x61#8 = some (.adcIndX 0x34#8) ∧
  read 0x65#8 = some (.adcZp 0x34#8) ∧
  read 0x69#8 = some (.adcImm 0x34#8) ∧
  read 0x6D#8 = some (.adcAbs 0x1234#16) ∧
  read 0x71#8 = some (.adcIndY 0x34#8) ∧
  read 0x75#8 = some (.adcZpX 0x34#8) ∧
  read 0x79#8 = some (.adcAbsY 0x1234#16) ∧
  read 0x7D#8 = some (.adcAbsX 0x1234#16) ∧
  read 0xE1#8 = some (.sbcIndX 0x34#8) ∧
  read 0xE5#8 = some (.sbcZp 0x34#8) ∧
  read 0xE9#8 = some (.sbcImm 0x34#8) ∧
  read 0xED#8 = some (.sbcAbs 0x1234#16) ∧
  read 0xF1#8 = some (.sbcIndY 0x34#8) ∧
  read 0xF5#8 = some (.sbcZpX 0x34#8) ∧
  read 0xF9#8 = some (.sbcAbsY 0x1234#16) ∧
  read 0xFD#8 = some (.sbcAbsX 0x1234#16) := by
  decide +kernel

theorem test_decode_compare :
  read 0xC1#8 = some (.cmpIndX 0x34#8) ∧
  read 0xC5#8 = some (.cmpZp 0x34#8) ∧
  read 0xC9#8 = some (.cmpImm 0x34#8) ∧
  read 0xCD#8 = some (.cmpAbs 0x1234#16) ∧
  read 0xD1#8 = some (.cmpIndY 0x34#8) ∧
  read 0xD5#8 = some (.cmpZpX 0x34#8) ∧
  read 0xD9#8 = some (.cmpAbsY 0x1234#16) ∧
  read 0xDD#8 = some (.cmpAbsX 0x1234#16) ∧
  read 0xE0#8 = some (.cpxImm 0x34#8) ∧
  read 0xE4#8 = some (.cpxZp 0x34#8) ∧
  read 0xEC#8 = some (.cpxAbs 0x1234#16) ∧
  read 0xC0#8 = some (.cpyImm 0x34#8) ∧
  read 0xC4#8 = some (.cpyZp 0x34#8) ∧
  read 0xCC#8 = some (.cpyAbs 0x1234#16) := by
  decide +kernel

theorem test_decode_step :
  read 0xE6#8 = some (.incZp 0x34#8) ∧
  read 0xEE#8 = some (.incAbs 0x1234#16) ∧
  read 0xF6#8 = some (.incZpX 0x34#8) ∧
  read 0xFE#8 = some (.incAbsX 0x1234#16) ∧
  read 0xC6#8 = some (.decZp 0x34#8) ∧
  read 0xCE#8 = some (.decAbs 0x1234#16) ∧
  read 0xD6#8 = some (.decZpX 0x34#8) ∧
  read 0xDE#8 = some (.decAbsX 0x1234#16) ∧
  read 0xE8#8 = some .inx ∧
  read 0xC8#8 = some .iny ∧
  read 0xCA#8 = some .dex ∧
  read 0x88#8 = some .dey := by
  decide +kernel

theorem test_decode_shift :
  read 0x06#8 = some (.aslZp 0x34#8) ∧
  read 0x0A#8 = some .aslAcc ∧
  read 0x0E#8 = some (.aslAbs 0x1234#16) ∧
  read 0x16#8 = some (.aslZpX 0x34#8) ∧
  read 0x1E#8 = some (.aslAbsX 0x1234#16) ∧
  read 0x46#8 = some (.lsrZp 0x34#8) ∧
  read 0x4A#8 = some .lsrAcc ∧
  read 0x4E#8 = some (.lsrAbs 0x1234#16) ∧
  read 0x56#8 = some (.lsrZpX 0x34#8) ∧
  read 0x5E#8 = some (.lsrAbsX 0x1234#16) := by
  decide +kernel

theorem test_decode_rotate :
  read 0x26#8 = some (.rolZp 0x34#8) ∧
  read 0x2A#8 = some .rolAcc ∧
  read 0x2E#8 = some (.rolAbs 0x1234#16) ∧
  read 0x36#8 = some (.rolZpX 0x34#8) ∧
  read 0x3E#8 = some (.rolAbsX 0x1234#16) ∧
  read 0x66#8 = some (.rorZp 0x34#8) ∧
  read 0x6A#8 = some .rorAcc ∧
  read 0x6E#8 = some (.rorAbs 0x1234#16) ∧
  read 0x76#8 = some (.rorZpX 0x34#8) ∧
  read 0x7E#8 = some (.rorAbsX 0x1234#16) := by
  decide +kernel

theorem test_decode_jump :
  read 0x4C#8 = some (.jmpAbs 0x1234#16) ∧
  read 0x6C#8 = some (.jmpInd 0x1234#16) ∧
  read 0x20#8 = some (.jsrAbs 0x1234#16) ∧
  read 0x60#8 = some .rts := by
  decide +kernel

theorem test_decode_branch :
  read 0x90#8 = some (.bcc 0x34#8) ∧
  read 0xB0#8 = some (.bcs 0x34#8) ∧
  read 0xF0#8 = some (.beq 0x34#8) ∧
  read 0xD0#8 = some (.bne 0x34#8) ∧
  read 0x30#8 = some (.bmi 0x34#8) ∧
  read 0x10#8 = some (.bpl 0x34#8) ∧
  read 0x50#8 = some (.bvc 0x34#8) ∧
  read 0x70#8 = some (.bvs 0x34#8) := by
  decide +kernel

theorem test_decode_flag :
  read 0x18#8 = some .clc ∧
  read 0xD8#8 = some .cld ∧
  read 0x58#8 = some .cli ∧
  read 0xB8#8 = some .clv ∧
  read 0x38#8 = some .sec ∧
  read 0xF8#8 = some .sed ∧
  read 0x78#8 = some .sei := by
  decide +kernel

theorem test_decode_system :
  read 0x00#8 = some .brk ∧
  read 0x40#8 = some .rti ∧
  read 0xEA#8 = some .nop := by
  decide +kernel

/-! ## The interface -/

/-- The table's numbering of a word: the first byte is least significant, the bits above the row's are zero. -/
theorem test_decodeTableWord :
    decodeTableWord 8 0xAD = some (.ldaAbs 0x0000#16) ∧ decodeTableWord 24 0x1234AD = some (.ldaAbs 0x1234#16) ∧
    decodeTableWord 8 0xFF1234AD = some (.ldaAbs 0x0000#16) ∧ decodeTableWord 8 0x02 = none := by decide +kernel

/-- After reset the next step runs exactly the placed instruction: LDA #$00 (10_state.md R41; 40_load_store.md R131). -/
theorem test_withFetchWord :
    (match step (State.reset.withFetchWord 8 0xA9) with
      | .next t => some (t.a, t.p, t.pc)
      | _ => none) = some (0x00#8, 0x36#8, some 0x0002#16) := by decide +kernel

/-! ## Single steps, from 95_test_vectors.md; the vector's id ends the theorem's name -/

/-- The start state of the vectors: the default registers, the code at PC and the other bytes given. -/
def start (pc : Addr) (code : List Byte) (cells : List Host.Cell) : State :=
  let placed := code.zipIdx.map (fun c => ((pc + BitVec.ofNat 16 c.2).toNat, c.1))
  { State.reset with
    sp := 0xFD#8, p := 0x24#8, pc := some pc, accesses := [],
    mem := (cells ++ placed).foldl (fun m c => m.write c.1 c.2) [] }

/-- What `f` sees of the state after one step. -/
def after {α : Type} (s : State) (f : State → α) : Option α :=
  match step s with
  | .next t => some (f t)
  | _ => none

/-- The bus writes of the last call, in order. -/
def writes (t : State) : List (Addr × Byte) :=
  t.accesses.filterMap (fun x => match x with
    | .write a v => some (a, v)
    | .read _ _  => none)

/-- The state an instruction gives, where it completes. -/
def ran {α : Type} (i : Instr) (s : State) (f : State → α) : Option α :=
  match exec i s with
  | .next t => some (f t)
  | _ => none

theorem test_lda_ls_1 :
    after (start 0x0200#16 [0xA9#8, 0x00#8] [] |>.withP 0xA4#8)
      (fun t => (t.p, t.cycles)) = some (0x26#8, some 2) := by decide +kernel

theorem test_lda_am_13 :
    after (start 0x0200#16 [0xB1#8, 0x30#8] [(0x0030, 0xF8#8), (0x0031, 0x12#8), (0x1308, 0x08#8)]
      |>.withY 0x10#8)
      (fun t => (t.a, t.p, t.cycles)) = some (0x08#8, 0x24#8, some 6) := by decide +kernel

theorem test_ldx_am_4 :
    after (start 0x0200#16 [0xB6#8, 0xFF#8] [(0x0000, 0x66#8)] |>.withY 0x01#8)
      (fun t => (t.x, t.p, t.cycles)) = some (0x66#8, 0x24#8, some 4) := by decide +kernel

theorem test_ldx_ls_5 :
    after (start 0x0200#16 [0xBE#8, 0xF0#8, 0x12#8] [(0x1310, 0x40#8)] |>.withY 0x20#8)
      (fun t => (t.x, t.p, t.cycles)) = some (0x40#8, 0x24#8, some 5) := by decide +kernel

theorem test_ldy_ls_4 :
    after (start 0x0200#16 [0xA0#8, 0xFF#8] [])
      (fun t => (t.y, t.p, t.cycles)) = some (0xFF#8, 0xA4#8, some 2) := by decide +kernel

theorem test_ldy_ls_6 :
    after (start 0x0200#16 [0xBC#8, 0x00#8, 0x12#8] [(0x1201, 0x00#8)] |>.withX 0x01#8)
      (fun t => (t.p, t.cycles)) = some (0x26#8, some 4) := by decide +kernel

theorem test_sta_ls_8 :
    after (start 0x0200#16 [0x91#8, 0x30#8] [(0x0030, 0xF8#8), (0x0031, 0x12#8)]
      |>.withA 0x77#8 |>.withY 0x10#8)
      (fun t => (writes t, t.cycles)) = some ([(0x1308#16, 0x77#8)], some 6) := by decide +kernel

theorem test_sta_ls_10 :
    after (start 0x0200#16 [0x81#8, 0xFF#8] [(0x0000, 0x05#8), (0x00FF, 0x00#8)] |>.withA 0x99#8)
      (fun t => (writes t, t.cycles)) = some ([(0x0500#16, 0x99#8)], some 6) := by decide +kernel

theorem test_stx_ls_11 :
    after (start 0x0200#16 [0x96#8, 0xFF#8] [] |>.withX 0x37#8 |>.withY 0x02#8)
      (fun t => (writes t, t.cycles)) = some ([(0x0001#16, 0x37#8)], some 4) := by decide +kernel

theorem test_sty_ls_12 :
    after (start 0x0200#16 [0x94#8, 0x80#8] [] |>.withX 0x80#8 |>.withP 0x26#8)
      (fun t => (writes t, t.cycles)) = some ([(0x0000#16, 0x00#8)], some 4) := by decide +kernel

theorem test_tax_ts_1 :
    after (start 0x0200#16 [0xAA#8] [] |>.withX 0x55#8)
      (fun t => (t.x, t.p, t.cycles)) = some (0x00#8, 0x26#8, some 2) := by decide +kernel

theorem test_tay_ts_2 :
    after (start 0x0200#16 [0xA8#8] [] |>.withA 0xF0#8)
      (fun t => (t.y, t.p, t.cycles)) = some (0xF0#8, 0xA4#8, some 2) := by decide +kernel

theorem test_txa_ts_3 :
    after (start 0x0200#16 [0x8A#8] [] |>.withX 0x80#8)
      (fun t => (t.a, t.p, t.cycles)) = some (0x80#8, 0xA4#8, some 2) := by decide +kernel

theorem test_tya_ts_4 :
    after (start 0x0200#16 [0x98#8] [] |>.withA 0x12#8)
      (fun t => (t.a, t.p, t.cycles)) = some (0x00#8, 0x26#8, some 2) := by decide +kernel

theorem test_tsx_ts_5 :
    after (start 0x0200#16 [0xBA#8] [] |>.withSp 0x00#8)
      (fun t => (t.p, t.cycles)) = some (0x26#8, some 2) := by decide +kernel

theorem test_txs_ts_6 :
    after (start 0x0200#16 [0x9A#8] [] |>.withP 0xA4#8)
      (fun t => (t.sp, t.p, t.cycles)) = some (0x00#8, 0xA4#8, some 2) := by decide +kernel

theorem test_pha_ts_7 :
    after (start 0x0200#16 [0x48#8] [] |>.withA 0x77#8 |>.withSp 0x00#8)
      (fun t => (t.sp, writes t, t.cycles)) = some (0xFF#8, [(0x0100#16, 0x77#8)], some 3) := by decide +kernel

theorem test_php_ts_9 :
    after (start 0x0200#16 [0x08#8] [] |>.withP 0xE7#8)
      (fun t => (t.sp, writes t, t.cycles)) = some (0xFC#8, [(0x01FD#16, 0xF7#8)], some 3) := by decide +kernel

theorem test_pla_ts_10 :
    after (start 0x0200#16 [0x68#8] [(0x0100, 0x80#8)] |>.withSp 0xFF#8)
      (fun t => (t.a, t.sp, t.p, t.cycles)) = some (0x80#8, 0x00#8, 0xA4#8, some 4) := by decide +kernel

theorem test_plp_ts_12 :
    after (start 0x0200#16 [0x28#8] [(0x01FD, 0x00#8)] |>.withSp 0xFC#8)
      (fun t => (t.sp, t.p, t.cycles)) = some (0xFD#8, 0x20#8, some 4) := by decide +kernel

theorem test_plp_ts_13 :
    after (start 0x0200#16 [0x28#8] [(0x01FD, 0xDF#8)] |>.withSp 0xFC#8)
      (fun t => (t.sp, t.p, t.cycles)) = some (0xFD#8, 0xFF#8, some 4) := by decide +kernel

theorem test_and_lg_2 :
    after (start 0x0200#16 [0x29#8, 0xFF#8] [] |>.withA 0x80#8 |>.withP 0x25#8)
      (fun t => (t.p, t.cycles)) = some (0xA5#8, some 2) := by decide +kernel

theorem test_and_lg_1 :
    after (start 0x0200#16 [0x29#8, 0x0F#8] [] |>.withA 0xF0#8)
      (fun t => (t.a, t.p, t.cycles)) = some (0x00#8, 0x26#8, some 2) := by decide +kernel

theorem test_eor_lg_5 :
    after (start 0x0200#16 [0x49#8, 0xFF#8] [] |>.withA 0x80#8)
      (fun t => (t.a, t.p, t.cycles)) = some (0x7F#8, 0x24#8, some 2) := by decide +kernel

theorem test_ora_lg_4 :
    after (start 0x0200#16 [0x09#8, 0x80#8] [] |>.withA 0x01#8)
      (fun t => (t.a, t.p, t.cycles)) = some (0x81#8, 0xA4#8, some 2) := by decide +kernel

theorem test_bit_lg_7 :
    after (start 0x0200#16 [0x24#8, 0x10#8] [(0x0010, 0xC0#8)] |>.withA 0x01#8)
      (fun t => (t.p, t.cycles)) = some (0xE6#8, some 3) := by decide +kernel

theorem test_bit_lg_9 :
    after (start 0x0200#16 [0x24#8, 0x10#8] [(0x0010, 0x01#8)] |>.withA 0xFF#8 |>.withP 0xE5#8)
      (fun t => (t.p, t.cycles)) = some (0x25#8, some 3) := by decide +kernel

theorem test_adc_adc_7 :
    after (start 0x0200#16 [0x69#8, 0x90#8] [] |>.withA 0xD0#8)
      (fun t => (t.a, t.p, t.cycles)) = some (0x60#8, 0x65#8, some 2) := by decide +kernel

theorem test_adc_adc_11 :
    after (start 0x0200#16 [0x69#8, 0x09#8] [] |>.withA 0x09#8 |>.withP 0x2C#8)
      (fun t => (t.a, t.p, t.cycles)) = some (0x12#8, 0x2C#8, some 2) := by decide +kernel

theorem test_sbc_sbc_4 :
    after (start 0x0200#16 [0xE9#8, 0x01#8] [] |>.withA 0x80#8 |>.withP 0x25#8)
      (fun t => (t.a, t.p, t.cycles)) = some (0x7F#8, 0x65#8, some 2) := by decide +kernel

theorem test_sbc_sbc_6 :
    after (start 0x0200#16 [0xE9#8, 0x05#8] [] |>.withA 0x05#8)
      (fun t => (t.a, t.p, t.cycles)) = some (0xFF#8, 0xA4#8, some 2) := by decide +kernel

theorem test_cmp_cmp_2 :
    after (start 0x0200#16 [0xC9#8, 0x20#8] [] |>.withA 0x10#8)
      (fun t => (t.p, t.cycles)) = some (0xA4#8, some 2) := by decide +kernel

theorem test_cmp_cmp_7 :
    after (start 0x0200#16 [0xC9#8, 0x10#8] [] |>.withA 0x20#8 |>.withP 0x64#8)
      (fun t => (t.p, t.cycles)) = some (0x65#8, some 2) := by decide +kernel

theorem test_cpx_cmp_8 :
    after (start 0x0200#16 [0xE0#8, 0x05#8] [] |>.withX 0x05#8)
      (fun t => (t.p, t.cycles)) = some (0x27#8, some 2) := by decide +kernel

theorem test_cpx_cmp_9 :
    after (start 0x0200#16 [0xE4#8, 0x10#8] [(0x0010, 0x02#8)] |>.withX 0x01#8)
      (fun t => (t.p, t.cycles)) = some (0xA4#8, some 3) := by decide +kernel

theorem test_cpy_cmp_10 :
    after (start 0x0200#16 [0xC0#8, 0x06#8] [] |>.withY 0x05#8)
      (fun t => (t.p, t.cycles)) = some (0xA4#8, some 2) := by decide +kernel

theorem test_cpy_cmp_11 :
    after (start 0x0200#16 [0xCC#8, 0x00#8, 0x03#8] [(0x0300, 0x10#8)] |>.withY 0x90#8)
      (fun t => (t.p, t.cycles)) = some (0xA5#8, some 4) := by decide +kernel

theorem test_inc_id_1 :
    after (start 0x0200#16 [0xE6#8, 0x10#8] [(0x0010, 0xFF#8)] |>.withP 0x25#8)
      (fun t => (t.p, writes t, t.cycles)) = some (0x27#8, [(0x0010#16, 0x00#8)], some 5) := by decide +kernel

theorem test_inc_id_2 :
    after (start 0x0200#16 [0xF6#8, 0xFF#8] [(0x0000, 0x7F#8)] |>.withX 0x01#8)
      (fun t => (t.p, writes t, t.cycles)) = some (0xA4#8, [(0x0000#16, 0x80#8)], some 6) := by decide +kernel

theorem test_dec_id_3 :
    after (start 0x0200#16 [0xCE#8, 0x00#8, 0x03#8] [(0x0300, 0x00#8)])
      (fun t => (t.p, writes t, t.cycles)) = some (0xA4#8, [(0x0300#16, 0xFF#8)], some 6) := by decide +kernel

theorem test_dec_id_4 :
    after (start 0x0200#16 [0xDE#8, 0xFF#8, 0x02#8] [(0x0300, 0x01#8)] |>.withX 0x01#8)
      (fun t => (t.p, writes t, t.cycles)) = some (0x26#8, [(0x0300#16, 0x00#8)], some 7) := by decide +kernel

theorem test_inx_id_5 :
    after (start 0x0200#16 [0xE8#8] [] |>.withX 0xFF#8)
      (fun t => (t.x, t.p, t.cycles)) = some (0x00#8, 0x26#8, some 2) := by decide +kernel

theorem test_iny_id_6 :
    after (start 0x0200#16 [0xC8#8] [] |>.withY 0x7F#8)
      (fun t => (t.y, t.p, t.cycles)) = some (0x80#8, 0xA4#8, some 2) := by decide +kernel

theorem test_dex_id_7 :
    after (start 0x0200#16 [0xCA#8] [])
      (fun t => (t.x, t.p, t.cycles)) = some (0xFF#8, 0xA4#8, some 2) := by decide +kernel

theorem test_dey_id_8 :
    after (start 0x0200#16 [0x88#8] [] |>.withY 0x01#8)
      (fun t => (t.y, t.p, t.cycles)) = some (0x00#8, 0x26#8, some 2) := by decide +kernel

theorem test_asl_sh_1 :
    after (start 0x0200#16 [0x0A#8] [] |>.withA 0x81#8)
      (fun t => (t.a, t.p, t.cycles)) = some (0x02#8, 0x25#8, some 2) := by decide +kernel

theorem test_asl_sh_3 :
    after (start 0x0200#16 [0x06#8, 0x10#8] [(0x0010, 0x40#8)])
      (fun t => (t.p, writes t, t.cycles)) = some (0xA4#8, [(0x0010#16, 0x80#8)], some 5) := by decide +kernel

theorem test_lsr_sh_5 :
    after (start 0x0200#16 [0x4A#8] [] |>.withA 0xFF#8 |>.withP 0xA4#8)
      (fun t => (t.a, t.p, t.cycles)) = some (0x7F#8, 0x25#8, some 2) := by decide +kernel

theorem test_lsr_sh_13 :
    after (start 0x0200#16 [0x5E#8, 0x00#8, 0x03#8] [(0x0300, 0x03#8)])
      (fun t => (t.p, writes t, t.cycles)) = some (0x25#8, [(0x0300#16, 0x01#8)], some 7) := by decide +kernel

theorem test_rol_sh_8 :
    after (start 0x0200#16 [0x2A#8] [] |>.withA 0x40#8 |>.withP 0x25#8)
      (fun t => (t.a, t.p, t.cycles)) = some (0x81#8, 0xA4#8, some 2) := by decide +kernel

theorem test_rol_sh_9 :
    after (start 0x0200#16 [0x26#8, 0x10#8] [(0x0010, 0xFF#8)] |>.withP 0x25#8)
      (fun t => (t.p, writes t, t.cycles)) = some (0xA5#8, [(0x0010#16, 0xFF#8)], some 5) := by decide +kernel

theorem test_ror_sh_10 :
    after (start 0x0200#16 [0x6A#8] [] |>.withA 0x01#8)
      (fun t => (t.a, t.p, t.cycles)) = some (0x00#8, 0x27#8, some 2) := by decide +kernel

theorem test_ror_sh_12 :
    after (start 0x0200#16 [0x7E#8, 0xFF#8, 0x02#8] [(0x0300, 0x02#8)] |>.withX 0x01#8 |>.withP 0x25#8)
      (fun t => (t.p, writes t, t.cycles)) = some (0xA4#8, [(0x0300#16, 0x81#8)], some 7) := by decide +kernel

theorem test_jmp_am_20 :
    after (start 0x0200#16 [0x6C#8, 0xFF#8, 0xFF#8] [(0xFF00, 0x04#8), (0xFFFF, 0x00#8)])
      (fun t => (t.p, t.pc, t.cycles)) = some (0x24#8, some 0x0400#16, some 5) := by decide +kernel

theorem test_jmp_ct_2 :
    after (start 0x0200#16 [0x6C#8, 0xFF#8, 0x30#8] [(0x3000, 0x50#8), (0x30FF, 0x80#8), (0x3100, 0x40#8)])
      (fun t => (t.p, t.pc, t.cycles)) = some (0x24#8, some 0x5080#16, some 5) := by decide +kernel

theorem test_jsr_ct_4 :
    after (start 0x0200#16 [0x20#8, 0x00#8, 0x80#8] [] |>.withSp 0x00#8)
      (fun t => (t.sp, t.pc, writes t, t.cycles)) = some (0xFE#8, some 0x8000#16, [(0x0100#16, 0x02#8), (0x01FF#16, 0x02#8)], some 6) := by decide +kernel

theorem test_jsr_ct_7 :
    after (start 0xFFFE#16 [0x20#8, 0x34#8, 0x12#8] [(0x0000, 0x12#8)])
      (fun t => (t.sp, t.pc, writes t, t.cycles)) = some (0xFB#8, some 0x1234#16, [(0x01FD#16, 0x00#8), (0x01FC#16, 0x00#8)], some 6) := by decide +kernel

theorem test_rts_ct_5 :
    after (start 0x0200#16 [0x60#8] [(0x01FC, 0x02#8), (0x01FD, 0x02#8)] |>.withSp 0xFB#8)
      (fun t => (t.sp, t.p, t.pc, t.cycles)) = some (0xFD#8, 0x24#8, some 0x0203#16, some 6) := by decide +kernel

theorem test_rts_ct_6 :
    after (start 0x0200#16 [0x60#8] [(0x01FC, 0xFF#8), (0x01FD, 0xFF#8)] |>.withSp 0xFB#8)
      (fun t => (t.sp, t.p, t.pc, t.cycles)) = some (0xFD#8, 0x24#8, some 0x0000#16, some 6) := by decide +kernel

theorem test_bcc_br_1 :
    after (start 0x0200#16 [0x90#8, 0x05#8] [])
      (fun t => (t.pc, t.cycles)) = some (some 0x0207#16, some 3) := by decide +kernel

theorem test_bcc_br_18 :
    after (start 0x0280#16 [0x90#8, 0x80#8] [])
      (fun t => (t.pc, t.cycles)) = some (some 0x0202#16, some 3) := by decide +kernel

theorem test_bcs_br_3 :
    after (start 0x0200#16 [0xB0#8, 0x05#8] [] |>.withP 0x25#8)
      (fun t => (t.pc, t.cycles)) = some (some 0x0207#16, some 3) := by decide +kernel

theorem test_bcs_br_4 :
    after (start 0x0200#16 [0xB0#8, 0x05#8] [])
      (fun t => (t.pc, t.cycles)) = some (some 0x0202#16, some 2) := by decide +kernel

theorem test_beq_br_17 :
    after (start 0x0280#16 [0xF0#8, 0x7F#8] [] |>.withP 0x26#8)
      (fun t => (t.pc, t.cycles)) = some (some 0x0301#16, some 4) := by decide +kernel

theorem test_beq_br_21 :
    after (start 0xFFFD#16 [0xF0#8, 0x01#8] [] |>.withP 0x26#8)
      (fun t => (t.pc, t.cycles)) = some (some 0x0000#16, some 4) := by decide +kernel

theorem test_bne_br_20 :
    after (start 0x0200#16 [0xD0#8, 0xFE#8] [])
      (fun t => (t.pc, t.cycles)) = some (some 0x0200#16, some 3) := by decide +kernel

theorem test_bne_br_8 :
    after (start 0x0200#16 [0xD0#8, 0x05#8] [] |>.withP 0x26#8)
      (fun t => (t.pc, t.cycles)) = some (some 0x0202#16, some 2) := by decide +kernel

theorem test_bmi_br_9 :
    after (start 0x0200#16 [0x30#8, 0x05#8] [] |>.withP 0xA4#8)
      (fun t => (t.pc, t.cycles)) = some (some 0x0207#16, some 3) := by decide +kernel

theorem test_bmi_br_10 :
    after (start 0x0200#16 [0x30#8, 0x05#8] [])
      (fun t => (t.pc, t.cycles)) = some (some 0x0202#16, some 2) := by decide +kernel

theorem test_bpl_br_19 :
    after (start 0x0200#16 [0x10#8, 0xFC#8] [])
      (fun t => (t.pc, t.cycles)) = some (some 0x01FE#16, some 4) := by decide +kernel

theorem test_bpl_br_12 :
    after (start 0x0200#16 [0x10#8, 0x05#8] [] |>.withP 0xA4#8)
      (fun t => (t.pc, t.cycles)) = some (some 0x0202#16, some 2) := by decide +kernel

theorem test_bvc_br_13 :
    after (start 0x0200#16 [0x50#8, 0x05#8] [])
      (fun t => (t.pc, t.cycles)) = some (some 0x0207#16, some 3) := by decide +kernel

theorem test_bvc_br_14 :
    after (start 0x0200#16 [0x50#8, 0x05#8] [] |>.withP 0x64#8)
      (fun t => (t.pc, t.cycles)) = some (some 0x0202#16, some 2) := by decide +kernel

theorem test_bvs_br_15 :
    after (start 0x0200#16 [0x70#8, 0x05#8] [] |>.withP 0x64#8)
      (fun t => (t.pc, t.cycles)) = some (some 0x0207#16, some 3) := by decide +kernel

theorem test_bvs_br_16 :
    after (start 0x0200#16 [0x70#8, 0x05#8] [])
      (fun t => (t.pc, t.cycles)) = some (some 0x0202#16, some 2) := by decide +kernel

theorem test_clc_fs_1 :
    after (start 0x0200#16 [0x18#8] [] |>.withP 0x25#8)
      (fun t => (t.p, t.cycles)) = some (0x24#8, some 2) := by decide +kernel

theorem test_cld_fs_2 :
    after (start 0x0200#16 [0xD8#8] [] |>.withP 0x2C#8)
      (fun t => (t.p, t.cycles)) = some (0x24#8, some 2) := by decide +kernel

theorem test_cli_fs_3 :
    after (start 0x0200#16 [0x58#8] [])
      (fun t => (t.p, t.cycles)) = some (0x20#8, some 2) := by decide +kernel

theorem test_clv_fs_4 :
    after (start 0x0200#16 [0xB8#8] [] |>.withP 0x64#8)
      (fun t => (t.p, t.cycles)) = some (0x24#8, some 2) := by decide +kernel

theorem test_sec_fs_5 :
    after (start 0x0200#16 [0x38#8] [])
      (fun t => (t.p, t.cycles)) = some (0x25#8, some 2) := by decide +kernel

theorem test_sed_fs_6 :
    after (start 0x0200#16 [0xF8#8] [])
      (fun t => (t.p, t.cycles)) = some (0x2C#8, some 2) := by decide +kernel

theorem test_sei_fs_7 :
    after (start 0x0200#16 [0x78#8] [] |>.withP 0x20#8)
      (fun t => (t.p, t.cycles)) = some (0x24#8, some 2) := by decide +kernel

theorem test_brk_fs_8 :
    after (start 0x0200#16 [0x00#8, 0xAA#8] [(0xFFFE, 0x00#8), (0xFFFF, 0x90#8)] |>.withP 0xA1#8)
      (fun t => (t.p, t.pc, writes t, t.cycles)) = some (0xA5#8, some 0x9000#16, [(0x01FD#16, 0x02#8), (0x01FC#16, 0x02#8), (0x01FB#16, 0xB1#8)], some 7) := by decide +kernel

theorem test_brk_fs_9 :
    after (start 0x0200#16 [0x00#8, 0xAA#8] [(0xFFFE, 0x00#8), (0xFFFF, 0x90#8)]
      |>.withSp 0x01#8 |>.withP 0x20#8)
      (fun t => (t.p, t.pc, writes t, t.cycles)) = some (0x24#8, some 0x9000#16, [(0x0101#16, 0x02#8), (0x0100#16, 0x02#8), (0x01FF#16, 0x30#8)], some 7) := by decide +kernel

theorem test_rti_fs_10 :
    after (start 0x0200#16 [0x40#8] [(0x01FB, 0xC3#8), (0x01FC, 0x34#8), (0x01FD, 0x12#8)]
      |>.withSp 0xFA#8)
      (fun t => (t.sp, t.p, t.pc, t.cycles)) = some (0xFD#8, 0xE3#8, some 0x1234#16, some 6) := by decide +kernel

theorem test_rti_fs_11 :
    after (start 0x0200#16 [0x40#8] [(0x01FB, 0x00#8), (0x01FC, 0x34#8), (0x01FD, 0x12#8)]
      |>.withSp 0xFA#8)
      (fun t => (t.sp, t.p, t.pc, t.cycles)) = some (0xFD#8, 0x20#8, some 0x1234#16, some 6) := by decide +kernel

theorem test_nop_am_19 :
    after (start 0xFFFF#16 [0xEA#8] [])
      (fun t => (t.p, t.pc, t.cycles)) = some (0x24#8, some 0x0000#16, some 2) := by decide +kernel

theorem test_entry_ex_5 :
    after (start 0x0200#16 [0xEA#8] [(0xFFFA, 0x00#8), (0xFFFB, 0x07#8)]
      |>.withP 0xA5#8 |>.withNmiPending true)
      (fun t => (t.sp, t.pc, writes t, t.cycles)) = some (0xFA#8, some 0x0700#16, [(0x01FD#16, 0x02#8), (0x01FC#16, 0x00#8), (0x01FB#16, 0xA5#8)], some 7) := by decide +kernel

theorem test_entry_ex_6 :
    after (start 0x0200#16 [0xEA#8] [(0xFFFE, 0x00#8), (0xFFFF, 0x08#8)]
      |>.withP 0x20#8 |>.withIrqLine true)
      (fun t => (t.p, t.pc, writes t, t.cycles)) = some (0x24#8, some 0x0800#16, [(0x01FD#16, 0x02#8), (0x01FC#16, 0x00#8), (0x01FB#16, 0x20#8)], some 7) := by decide +kernel

theorem test_entry_ex_7 :
    after (start 0x0200#16 [0xEA#8] [(0xFFFE, 0x00#8), (0xFFFF, 0x08#8)] |>.withIrqLine true)
      (fun t => (t.p, t.pc, t.cycles)) = some (0x24#8, some 0x0201#16, some 2) := by decide +kernel

theorem test_entry_ex_9 :
    after (start 0x0200#16 [0x02#8] [(0xFFFA, 0x00#8), (0xFFFB, 0x07#8)] |>.withNmiPending true)
      (fun t => (t.sp, t.pc, writes t, t.cycles)) = some (0xFA#8, some 0x0700#16, [(0x01FD#16, 0x02#8), (0x01FC#16, 0x00#8), (0x01FB#16, 0x24#8)], some 7) := by decide +kernel

/-! ## The parameters (00_scope.md R8); the expected values are the spec's reading of ROM, mirrors and side-effect reads in
20_memory.md R52, R62 -/

/-- A start state over a bus map, with the rows of its devices for reads and for writes. -/
def onMap (map : List Region) (reads writes : List DeviceRow) : State :=
  (start 0x0200#16 [0xEA#8] [(0x0010, 0x11#8), (0x8000, 0x22#8)]).withParams ⟨map, reads, writes, []⟩

/-- A write to ROM is an access and has no effect. -/
theorem test_rom_keeps_its_byte :
    (let t := (onMap [⟨0x8000#16, 0xFFFF#16, .rom⟩] [] []).busWrite 0x8000#16 0x33#8
     (t.peek 0x8000#16, writes t)) = (0x22#8, [(0x8000#16, 0x33#8)]) := by decide +kernel

/-- RAM mirrored as on the NES: 0x0810 is 0x0010, for reads and writes. -/
theorem test_mirror_is_one_cell :
    (let s := onMap [⟨0x0800#16, 0x1FFF#16, .mirror 0x0000#16 0x0800⟩] [] []
     (s.peek 0x0810#16, (s.busWrite 0x1810#16 0x44#8).peek 0x0010#16)) = (0x11#8, 0x44#8) := by decide +kernel

/-- Two reads of one device register give two answers: a read can have an effect. -/
theorem test_device_reads_in_order :
    (let s := onMap [⟨0x2000#16, 0x3FFF#16, .device⟩] [⟨0, 0x2002#16, 0x80#8, 1⟩, ⟨1, 0x2002#16, 0x00#8, 2⟩] []
     let r := s.busRead 0x2002#16
     (r.1, (r.2.busRead 0x2002#16).1, (r.2.busRead 0x0010#16).1)) = (0x80#8, 0x00#8, 0x11#8) := by decide +kernel

/-- INC of a device register reads it once and writes it once (30_encoding.md R104; 20_memory.md R61). -/
theorem test_inc_of_a_device :
    ran (.incAbs 0x2007#16) (onMap [⟨0x2000#16, 0x3FFF#16, .device⟩] [⟨0, 0x2007#16, 0x7F#8, 1⟩] [⟨1, 0x2007#16, 0x80#8, 9⟩])
      (fun t => (t.accesses, t.deviceState, t.p)) =
      some ([.read 0x2007#16 0x7F#8, .write 0x2007#16 0x80#8], 9, 0xA4#8) := by decide +kernel

/-- A bank switch: STA into the cartridge changes what the same address answers afterwards, and a read leaves the bank as it is. -/
theorem test_a_device_write_changes_a_later_read :
    (let s := onMap [⟨0x8000#16, 0xFFFF#16, .device⟩] [⟨0, 0x9000#16, 0x11#8, 0⟩, ⟨7, 0x9000#16, 0x22#8, 7⟩] [⟨0, 0x8000#16, 0x01#8, 7⟩]
     ((s.busRead 0x9000#16).1, ran (.staAbs 0x8000#16) (s.withA 0x01#8) (fun t => ((t.busRead 0x9000#16).1, t.deviceState)))) =
      (0x11#8, some (0x22#8, 7)) := by decide +kernel

/-- A mirror of a device register is that register, and a write that no row names does not stop the instruction. -/
theorem test_a_mirror_of_a_device :
    (let s := onMap [⟨0x2000#16, 0x2007#16, .device⟩, ⟨0x2008#16, 0x3FFF#16, .mirror 0x2000#16 8⟩] [⟨0, 0x2002#16, 0x80#8, 3⟩] []
     let r := s.busRead 0x3FFA#16
     (r.1, r.2.deviceState, (ran (.staAbs 0x3FFA#16) s (fun t => t.mem == s.mem)))) = (0x80#8, 3, some true) := by decide +kernel

/-- `BaseCycles` and `PagePenalty` given for one opcode byte, the reference counts for the others. -/
theorem test_timing_is_a_parameter :
    (let s := (start 0x0200#16 [0xBD#8, 0xF0#8, 0x12#8] []).withX 0x20#8
     let slow := s.withParams ⟨[], [], [], [⟨0xBD#8, 9, false⟩]⟩
     (after s State.cycles, after slow State.cycles, after (slow.withPc (some 0x0300#16)) State.cycles)) =
      (some (some 5), some (some 9), some (some 7)) := by decide +kernel

/-- The interface's placing of an instruction runs it over any bus. -/
theorem test_withFetchWord_on_a_device :
    after ((onMap [⟨0x0000#16, 0xFFFF#16, .device⟩] [] []).withFetchWord 16 0x7FA9) (fun t => (t.a, t.pc)) =
      some (0x7F#8, some 0x0202#16) := by decide +kernel

/-- V-EX-1: the fault names the byte, PC is one past it, and nothing else changed. -/
theorem test_unsupported_ex_1 :
    (match step ((start 0x0200#16 [0x02#8] []).withA 0x11#8) with
      | .fault (.unsupportedOpcode b t) => some (b, t.a, t.pc, t.accesses)
      | _ => none) = some (0x02#8, 0x11#8, some 0x0201#16, [.read 0x0200#16 0x02#8]) := by decide +kernel

/-- V-RS-3 (10_state.md R41): after power-on and reset; the vector at 0xFFFC is 0x8000. -/
theorem test_power_on_then_reset :
    (let t := ((start 0x0200#16 [] [(0xFFFD, 0x80#8)]).withA 0x55#8).powerOn.resetRoutine
     (t.a, t.sp, t.p, t.pc)) = (0x00#8, 0xFA#8, 0x34#8, some 0x8000#16) := by decide +kernel

/-! ## Witnesses: states and operands that meet all hypotheses of an obligation together -/

/-- NOP at 0x0200. -/
def atNop : State := start 0x0200#16 [0xEA#8] []

/-- LDA $12F0,X at 0x0200, with X = 0x20: the page is crossed. -/
def atLda : State := (start 0x0200#16 [0xBD#8, 0xF0#8, 0x12#8] [(0x1310, 0x02#8)]).withX 0x20#8

/-- BEQ at 0x0280 with Z set, to 0x0301. -/
def atBeq : State := (start 0x0280#16 [0xF0#8, 0x7F#8] []).withP 0x26#8

theorem atFetch_atNop : AtFetch atNop 0x0200#16 := ⟨rfl, rfl, by decide +kernel⟩
theorem atFetch_atLda : AtFetch atLda 0x0200#16 := ⟨rfl, rfl, by decide +kernel⟩
theorem atFetch_atBeq : AtFetch atBeq 0x0280#16 := ⟨rfl, rfl, by decide +kernel⟩

theorem witness_DecodeAfterEncodeReturnsTheInstruction : (Instr.jmpInd 0x30FF#16).wellFormed = true := by decide

theorem witness_EncodeAfterDecodeReturnsTheBytes :
    decode [0x6C#8, 0xFF#8, 0x30#8, 0xEA#8] = .ok (.jmpInd 0x30FF#16, [0xEA#8]) := rfl

/-- Both sides of the list's ends. -/
theorem witness_ExactlyTheListedBytesAreAbsent :
    decode3 0x02#8 0x00#8 0x00#8 = none ∧ decode3 0xFF#8 0xFF#8 0xFF#8 = none ∧
    decode3 0x00#8 0x00#8 0x00#8 ≠ none ∧ decode3 0xFE#8 0xFF#8 0xFF#8 ≠ none := by decide +kernel

/-- One instruction of each length. -/
theorem witness_TheOpcodeByteFixesModeAndLength :
    decode3 0x0A#8 0x00#8 0x00#8 = some .aslAcc ∧ decode3 0xB1#8 0xFF#8 0x00#8 = some (.ldaIndY 0xFF#8) ∧
    decode3 0x6C#8 0xFF#8 0x30#8 = some (.jmpInd 0x30FF#16) := by decide +kernel

theorem witness_AStepRunsTheDecodedInstruction :
    (AtFetch atLda 0x0200#16 ∧ decodesAt atLda 0x0200#16 (.ldaAbsX 0x12F0#16)) ∧
    (AtFetch (atNop.withIrqLine true) 0x0200#16 ∧ decodesAt (atNop.withIrqLine true) 0x0200#16 .nop) :=
  ⟨⟨atFetch_atLda, rfl⟩,
   ⟨rfl, rfl, by decide +kernel⟩, rfl⟩

theorem witness_AnAbsentOpcodeByteStopsTheStep :
    AtFetch (start 0xFFFF#16 [0xFF#8] []) 0xFFFF#16 ∧
    ((start 0xFFFF#16 [0xFF#8] []).peek 0xFFFF#16).toNat ∈ absentBytes :=
  ⟨⟨rfl, rfl, by decide +kernel⟩, by decide +kernel⟩

theorem witness_AStepWithoutPcFails : State.reset.powerOn.pc = none := rfl

theorem witness_APendingNmiIsEntered :
    (atNop.withNmiPending true).pc = some 0x0200#16 ∧ (atNop.withNmiPending true).nmiPending = true := ⟨rfl, rfl⟩

theorem witness_AnUnmaskedIrqIsEntered :
    let s := (atNop.withIrqLine true).withP 0x20#8
    s.pc = some 0x0200#16 ∧ s.nmiPending = false ∧ s.irqLine = true ∧ s.flag .i = false := by decide +kernel

/-- Each way to complete, each way not to. -/
theorem witness_AStepCompletesExactlyWhereTheSpecSaysSo :
    after (atNop.withNmiPending true) (fun _ => ()) = some () ∧
    after ((atNop.withIrqLine true).withP 0x20#8) (fun _ => ()) = some () ∧
    after atNop (fun _ => ()) = some () ∧
    after (start 0x0200#16 [0x02#8] []) (fun _ => ()) = none ∧
    after atNop.powerOn (fun _ => ()) = none := by decide +kernel

theorem witness_NoInstructionFailsWherePcHasAValue : State.reset.pc ≠ none := by decide

/-- A state without PC, one instruction that stops and one that does not. -/
theorem witness_InstructionsThatNeedPcStopWithoutIt :
    State.reset.powerOn.pc = none ∧
    Instr.brk.mnemonic ∈ [Mnemonic.brk, .jsr, .bcc, .bcs, .beq, .bne, .bmi, .bpl, .bvc, .bvs] ∧
    Instr.rti.mnemonic ∉ [Mnemonic.brk, .jsr, .bcc, .bcs, .beq, .bne, .bmi, .bpl, .bvc, .bvs] :=
  ⟨rfl, by decide, by decide⟩

theorem witness_TheResetStateIsPowerOnThenReset :
    State.reset.params = Params.reference ∧ State.reset.mem = [] ∧ State.reset.deviceState = 0 ∧ State.reset.irqLine = false :=
  ⟨rfl, rfl, rfl, rfl⟩

theorem completes_of_after {s : State} (h : after s (fun _ => ()) = some ()) : ∃ t, step s = .next t := by
  unfold after at h
  split at h
  · rename_i t ht
    exact ⟨t, ht⟩
  · cases h

theorem witness_EveryStepKeepsTheInvariant : atLda.Inv ∧ ∃ t, step atLda = .next t :=
  ⟨by decide +kernel, completes_of_after (by decide +kernel)⟩

/-- Every kind of event. -/
theorem witness_EveryScheduleKeepsTheInvariant :
    atNop.Inv ∧ ∃ t, runSchedule [.step, .nmiRequest, .irqLine true, .busWrite 0xFFFF#16 0x01#8, .devicesGoOn 7, .powerOn, .reset] atNop
      = .next t := by
  obtain ⟨u, hu⟩ := completes_of_after (s := atNop) (by decide +kernel)
  exact ⟨by decide +kernel, _, by simp only [runSchedule, applyEvent, hu]; rfl⟩

/-- The two ends of the address space. -/
theorem witness_CanonicalMemoriesThatReadAlikeAreEqual :
    let m : Memory := [(0, 0x01#8), (0xFFFF, 0xFF#8)]
    m.wf = true ∧ ∀ a : Addr, m.read a.toNat = m.read a.toNat := ⟨by decide, fun _ => rfl⟩

/-- The bit written, bit 5, another bit. -/
theorem witness_SetBitWritesOneBit :
    (0 < 8 ∧ 7 < 8) ∧ setBit 0x24#8 0 true = 0x25#8 ∧ setBit 0xFF#8 3 false = 0xF7#8 ∧ setBit 0x00#8 5 false = 0x20#8 := by
  decide

/-- On the reference bus the stack page is plain RAM. -/
theorem stackPlain_of_flat {s : State} (h : s.params.busMap = []) : StackPlain s :=
  fun _ => ⟨isRam_flat h _, cell_flat h _⟩

theorem witness_TheStackIsLastInFirstOut :
    State.reset.mem.wf = true ∧ StackPlain State.reset ∧ (List.replicate 256 0xFF#8).length ≤ 256 :=
  ⟨rfl, stackPlain_of_flat rfl, Nat.le_of_eq List.length_replicate⟩

/-- What `ByteStored` asks for the byte to stand on the stack, and a stack in ROM, where it does not. -/
theorem witness_PushAndPullMoveOneByte :
    (atNop.mem.wf = true ∧ atNop.params.isRam (stackAddr atNop.sp) = true) ∧
    (onMap [⟨0x0100#16, 0x01FF#16, .rom⟩] [] []).params.isRam (stackAddr 0xFD#8) = false := by decide +kernel

theorem witness_LoadsPutTheOperandInTheirRegister :
    loadRegister (Instr.ldaImm 0x00#8).mnemonic = some .a ∧ loadRegister (Instr.ldxZpY 0xFF#8).mnemonic = some .x ∧
    loadRegister (Instr.ldyAbsX 0xFFFF#16).mnemonic = some .y := ⟨rfl, rfl, rfl⟩

theorem witness_StoresPutTheirRegisterInMemory :
    (atNop.mem.wf = true ∧ atNop.params.isRam 0xFFFF#16 = true) ∧ storeRegister (Instr.staIndY 0xFF#8).mnemonic = some .a ∧
    storeRegister (Instr.stxZpY 0xFF#8).mnemonic = some .x ∧ storeRegister (Instr.styAbs 0xFFFF#16).mnemonic = some .y :=
  ⟨by decide +kernel, rfl, rfl, rfl⟩

theorem witness_PushInstructionsStoreOneByte :
    ((Instr.pha = .pha ∧ atNop.a = atNop.a) ∨ (Instr.pha = .php ∧ atNop.a = atNop.p ||| 0x30#8)) ∧
    ((Instr.php = .pha ∧ (0x34#8 : Byte) = atNop.a) ∨ (Instr.php = .php ∧ (0x34#8 : Byte) = atNop.p ||| 0x30#8)) := by
  decide +kernel

theorem witness_LogicalInstructionsCombineIntoA :
    (Instr.andImm 0x0F#8).mnemonic = .and ∧ (Instr.eorZp 0x10#8).mnemonic = .eor ∧ (Instr.oraAbs 0x1234#16).mnemonic = .ora :=
  ⟨rfl, rfl, rfl⟩

theorem witness_BitTestsWithoutStoring : (Instr.bitAbs 0x0300#16).mnemonic = .bit := rfl

theorem witness_AdcAddsWithCarry : (Instr.adcIndY 0x30#8).mnemonic = .adc := rfl

theorem witness_SbcSubtractsWithBorrow : (Instr.sbcAbsY 0x1234#16).mnemonic = .sbc := rfl

theorem witness_ComparesSetCarryZeroNegative :
    compareRegister (Instr.cmpIndX 0xFF#8).mnemonic = some .a ∧ compareRegister (Instr.cpxImm 0x00#8).mnemonic = some .x ∧
    compareRegister (Instr.cpyAbs 0xFFFF#16).mnemonic = some .y := ⟨rfl, rfl, rfl⟩

theorem witness_IncAndDecStepAByteOfMemory :
    atNop.mem.wf = true ∧ ((Instr.incZpX 0xFF#8).mnemonic = .inc ∨ (Instr.incZpX 0xFF#8).mnemonic = .dec) ∧
    ((Instr.decAbs 0x0300#16).mnemonic = .inc ∨ (Instr.decAbs 0x0300#16).mnemonic = .dec) :=
  ⟨by decide +kernel, .inl rfl, .inr rfl⟩

theorem witness_AccumulatorShiftsByOneBit :
    Instr.rorAcc = .aslAcc ∨ Instr.rorAcc = .lsrAcc ∨ Instr.rorAcc = .rolAcc ∨ Instr.rorAcc = .rorAcc :=
  .inr (.inr (.inr rfl))

theorem witness_MemoryShiftsByOneBit :
    atNop.mem.wf = true ∧ (Instr.aslZp 0x10#8).mnemonic = .asl ∧ (Instr.lsrAbs 0x0300#16).mnemonic = .lsr ∧
    (Instr.rolZpX 0xFF#8).mnemonic = .rol ∧ (Instr.rorAbsX 0xFFFF#16).mnemonic = .ror :=
  ⟨by decide +kernel, rfl, rfl, rfl, rfl⟩

theorem witness_JsrPushesTheReturnAddressLessOne : atNop.mem.wf = true ∧ StackPlain atNop ∧ atNop.pc = some 0x0200#16 :=
  ⟨by decide +kernel, stackPlain_of_flat rfl, rfl⟩

theorem witness_BranchesGoToTheirTargetOnTheirCondition :
    atBeq.pc = some 0x0280#16 ∧
    takenWhen (Instr.bcc 0x80#8).mnemonic = some (.c, false) ∧ takenWhen (Instr.bcs 0x7F#8).mnemonic = some (.c, true) ∧
    takenWhen (Instr.beq 0x7F#8).mnemonic = some (.z, true) ∧ takenWhen (Instr.bne 0xFF#8).mnemonic = some (.z, false) ∧
    takenWhen (Instr.bmi 0x00#8).mnemonic = some (.n, true) ∧ takenWhen (Instr.bpl 0x05#8).mnemonic = some (.n, false) ∧
    takenWhen (Instr.bvc 0x05#8).mnemonic = some (.v, false) ∧ takenWhen (Instr.bvs 0x05#8).mnemonic = some (.v, true) :=
  ⟨rfl, rfl, rfl, rfl, rfl, rfl, rfl, rfl, rfl⟩

/-- The state an instruction gives, or the state itself. -/
def next (r : Result) (s : State) : State :=
  match r with
  | .next t => t
  | _ => s

/-- A state that a subroutine or handler of its own left behind: it stored a byte and changed A. -/
def later (t : State) : State := (t.busWrite 0x0030#16 0x55#8).withA 0x77#8

/-- The premises on the state `w` before the return: same parameters, same SP, the pushed bytes still read as pushed. -/
def balanced (t w : State) (pushed : List Byte) : Prop :=
  w.params = t.params ∧ w.sp = t.sp ∧ ∀ k ∈ pushed, w.peek (stackAddr k) = t.peek (stackAddr k)

theorem witness_ReturnUndoesACall :
    atNop.mem.wf = true ∧ StackPlain atNop ∧ atNop.pc = some 0x0200#16 ∧
    balanced (next (exec (.jsrAbs 0x8000#16) atNop) atNop) (later (next (exec (.jsrAbs 0x8000#16) atNop) atNop))
      [atNop.sp, atNop.sp - 1#8] :=
  ⟨by decide +kernel, stackPlain_of_flat rfl, rfl, rfl, rfl, by decide +kernel⟩

theorem witness_FlagInstructionsWriteOneFlag :
    flagWritten Instr.clc.mnemonic = some (.c, false) ∧ flagWritten Instr.cld.mnemonic = some (.d, false) ∧
    flagWritten Instr.cli.mnemonic = some (.i, false) ∧ flagWritten Instr.clv.mnemonic = some (.v, false) ∧
    flagWritten Instr.sec.mnemonic = some (.c, true) ∧ flagWritten Instr.sed.mnemonic = some (.d, true) ∧
    flagWritten Instr.sei.mnemonic = some (.i, true) := ⟨rfl, rfl, rfl, rfl, rfl, rfl, rfl⟩

/-- CLI with the IRQ line at 1 and I set, SEI with I clear, at the top of memory. -/
theorem witness_CliAndSeiActAtTheNextBoundary :
    (let s := (start 0xFFFF#16 [0x58#8] []).withIrqLine true
     AtFetch s 0xFFFF#16 ∧ decodesAt s 0xFFFF#16 .cli) ∧
    (let s := (start 0xFFFF#16 [0x78#8] []).withP 0x20#8
     AtFetch s 0xFFFF#16 ∧ decodesAt s 0xFFFF#16 .sei) :=
  ⟨⟨⟨rfl, rfl, by decide +kernel⟩, rfl⟩,
   ⟨⟨rfl, rfl, by decide +kernel⟩, rfl⟩⟩

/-- Also what `Entered` asks for the vector's bytes to be the old ones. -/
theorem witness_BrkEntersTheIrqBrkVector :
    atNop.mem.wf = true ∧ StackPlain atNop ∧ atNop.pc = some 0x0200#16 ∧
    ∀ a ∈ [stackAddr atNop.sp, stackAddr (atNop.sp - 1#8), stackAddr (atNop.sp - 2#8)],
      ∀ v ∈ [0xFFFE#16, 0xFFFE#16 + 1#16], Apart atNop a v :=
  ⟨by decide +kernel, stackPlain_of_flat rfl, rfl, by
    intro a ha v hv
    simp only [List.mem_cons, List.not_mem_nil, or_false] at ha hv
    unfold Apart
    rcases ha with rfl | rfl | rfl <;> rcases hv with rfl | rfl <;> decide +kernel⟩

theorem witness_RtiAfterBrkResumesPastTheSkippedByte :
    atNop.mem.wf = true ∧ StackPlain atNop ∧ atNop.pc = some 0x0200#16 ∧
    balanced (next (exec .brk atNop) atNop) (later (next (exec .brk atNop) atNop))
      [atNop.sp, atNop.sp - 1#8, atNop.sp - 2#8] :=
  ⟨by decide +kernel, stackPlain_of_flat rfl, rfl, rfl, rfl, by decide +kernel⟩

/-- An NMI and an IRQ. -/
theorem witness_RtiAfterAnInterruptResumesTheInterruptedProgram :
    (let s := atNop.withNmiPending true
     s.mem.wf = true ∧ StackPlain s ∧ s.pc = some 0x0200#16 ∧ AtEntry s ∧
     balanced (next (step s) s) (later (next (step s) s)) [s.sp, s.sp - 1#8, s.sp - 2#8]) ∧
    (let s := (atNop.withIrqLine true).withP 0x20#8
     s.mem.wf = true ∧ StackPlain s ∧ s.pc = some 0x0200#16 ∧ AtEntry s ∧
     balanced (next (step s) s) (later (next (step s) s)) [s.sp, s.sp - 1#8, s.sp - 2#8]) :=
  ⟨⟨by decide +kernel, stackPlain_of_flat rfl, rfl, ⟨nofun, .inl rfl⟩, rfl, rfl, by decide +kernel⟩,
   ⟨by decide +kernel, stackPlain_of_flat rfl, rfl, ⟨nofun, .inr ⟨rfl, by decide +kernel⟩⟩, rfl, rfl, by decide +kernel⟩⟩

/-- A form with a place in memory whose page is crossed, and one without. -/
theorem witness_InstructionsReturnBasePlusPageCrossing :
    (AtFetch atLda 0x0200#16 ∧ decodesAt atLda 0x0200#16 (.ldaAbsX 0x12F0#16) ∧
      takenWhen (Instr.ldaAbsX 0x12F0#16).mnemonic = none ∧
      opTab (atLda.peek 0x0200#16) = some ⟨.lda, .absoluteX, 3, 4, true⟩ ∧
      (Instr.ldaAbsX 0x12F0#16).operand = .memory (.absoluteX 0x12F0#16) ∧
      (resolve (.absoluteX 0x12F0#16) atLda).crossed = true) ∧
    (AtFetch atNop 0x0200#16 ∧ decodesAt atNop 0x0200#16 .nop ∧ takenWhen Instr.nop.mnemonic = none ∧
      opTab (atNop.peek 0x0200#16) = some ⟨.nop, .implicit, 1, 2, false⟩ ∧ ∀ f, Instr.nop.operand ≠ .memory f) :=
  ⟨⟨atFetch_atLda, rfl, rfl, by decide +kernel, rfl, by decide +kernel⟩,
   ⟨atFetch_atNop, rfl, rfl, by decide +kernel, fun _ h => by cases h⟩⟩

/-- A branch taken to another page; and the same with counts of its own and the mark. -/
theorem witness_BranchesCostTwoThreeOrFour :
    (AtFetch atBeq 0x0280#16 ∧ decodesAt atBeq 0x0280#16 (.beq 0x7F#8) ∧
      takenWhen (Instr.beq 0x7F#8).mnemonic = some (.z, true) ∧ (Instr.beq 0x7F#8).operand = .relative 0x7F#8) ∧
    (let s := atBeq.withParams ⟨[], [], [], [⟨0xF0#8, 3, true⟩]⟩
     AtFetch s 0x0280#16 ∧ decodesAt s 0x0280#16 (.beq 0x7F#8) ∧
      s.params.timing.find? (fun r => r.opcode == s.peek 0x0280#16) = some ⟨0xF0#8, 3, true⟩) :=
  ⟨⟨atFetch_atBeq, rfl, rfl, rfl⟩, ⟨rfl, rfl, by decide +kernel⟩, rfl, by decide +kernel⟩

/-- A writer of each register changes it; A also by a shift in Accumulator mode. -/
theorem witness_RegistersChangeOnlyByTheirWriters :
    ran (.ldaImm 0x01#8) atNop (fun t => decide (t.a ≠ atNop.a)) = some true ∧
    ran .rorAcc (atNop.withA 0x01#8) (fun t => decide (t.a ≠ 0x01#8)) = some true ∧
    ran .dex atNop (fun t => decide (t.x ≠ atNop.x)) = some true ∧
    ran .tay (atNop.withA 0x01#8) (fun t => decide (t.y ≠ atNop.y)) = some true ∧
    ran .txs atNop (fun t => decide (t.sp ≠ atNop.sp)) = some true := by decide +kernel

/-- A writer of each flag changes it. -/
theorem witness_FlagsChangeOnlyByTheirWriters :
    ran .sec atNop (fun t => decide (t.flag .c ≠ atNop.flag .c)) = some true ∧
    ran (.ldaImm 0x00#8) atNop (fun t => decide (t.flag .z ≠ atNop.flag .z)) = some true ∧
    ran .cli atNop (fun t => decide (t.flag .i ≠ atNop.flag .i)) = some true ∧
    ran .sed atNop (fun t => decide (t.flag .d ≠ atNop.flag .d)) = some true ∧
    ran .plp ((start 0x0200#16 [] [(0x01FE, 0x10#8)])) (fun t => decide (t.flag .b ≠ atNop.flag .b)) = some true ∧
    ran .clv (atNop.withP 0x64#8) (fun t => decide (t.flag .v ≠ true)) = some true ∧
    ran .dex atNop (fun t => decide (t.flag .n ≠ atNop.flag .n)) = some true := by decide +kernel

/-- A store, a shift of memory and a jump. -/
theorem witness_MemoryAndPcChangeOnlyByTheirWriters :
    ran (.staAbs 0x0300#16) (atNop.withA 0x01#8) (fun t => decide (t.peek 0x0300#16 ≠ atNop.peek 0x0300#16)) = some true ∧
    ran (.lsrAbs 0x0200#16) atNop (fun t => decide (t.peek 0x0200#16 ≠ atNop.peek 0x0200#16)) = some true ∧
    ran (.jmpAbs 0x8000#16) atNop (fun t => decide (t.pc ≠ atNop.pc)) = some true := by decide +kernel

/-- An instruction that pushes no status byte; BRK, an NMI and an IRQ over flat RAM and over a bus that is all devices and answers
both vector reads alike; a place apart from the pushed byte. -/
theorem witness_DecimalModeAffectsNoResult :
    ((Instr.adcImm 0x09#8).mnemonic ≠ .php ∧ (Instr.adcImm 0x09#8).mnemonic ≠ .brk) ∧
    (let s := (atNop.withNmiPending true).withP 0x28#8
     AtEntry s ∧ s.mem.wf = true ∧ s.pc = some 0x0200#16 ∧
     vectorAfter s 0x0201#16 ((s.p ||| 0x30#8) &&& 0xF7#8) 0xFFFE#16 = vectorAfter s 0x0201#16 (s.p ||| 0x30#8) 0xFFFE#16 ∧
     vectorAfter s 0x0200#16 (interruptStatus s.p &&& 0xF7#8) 0xFFFA#16 = vectorAfter s 0x0200#16 (interruptStatus s.p) 0xFFFA#16) ∧
    (let w (n : Nat) (a : Addr) (v : Byte) : DeviceRow := ⟨n, a, v, n + 1⟩
     let s := ((onMap [⟨0x0000#16, 0xFFFF#16, .device⟩] [⟨3, 0xFFFE#16, 0x00#8, 4⟩, ⟨4, 0xFFFF#16, 0x80#8, 5⟩]
       [w 0 0x01FD#16 0x02#8, w 1 0x01FC#16 0x00#8, w 2 0x01FB#16 0x28#8, w 2 0x01FB#16 0x20#8]).withIrqLine true).withP 0x28#8
     AtEntry s ∧ vectorAfter s 0x0200#16 (interruptStatus s.p) 0xFFFE#16 = [0x00#8, 0x80#8] ∧
     vectorAfter s 0x0200#16 (interruptStatus s.p &&& 0xF7#8) 0xFFFE#16 = [0x00#8, 0x80#8]) ∧
    Apart atNop (stackAddr (atNop.sp - 2#8)) 0xFFFE#16 ∧ Apart atNop (stackAddr (atNop.sp - 2#8)) (0xFFFE#16 + 1#16) := by
  refine ⟨by decide, ⟨⟨nofun, .inl rfl⟩, ?_⟩, ⟨⟨nofun, .inr ⟨rfl, ?_⟩⟩, ?_⟩, ?_⟩
  · decide +kernel
  · decide +kernel
  · decide +kernel
  · unfold Apart; decide +kernel

/-- Another bus on which the accesses of the step can run: other bytes where it does not read, ROM behind the code, a device behind
the byte it loads; and a pair of functions that is no bus of the model, every read of which answers NOP and counts. -/
theorem witness_AStepDependsOnlyOnTheBytesItReads :
    let t := next (step atLda) atLda
    let p : Params := ⟨[⟨0x0200#16, 0x02FF#16, .rom⟩, ⟨0x1310#16, 0x1310#16, .device⟩], [⟨0, 0x1310#16, 0x02#8, 1⟩], [], []⟩
    let B : Bus Nat := ⟨fun n _ => (0xEA#8, n + 1), fun n _ _ => n⟩
    (step atLda = .next t ∧ p.timing = atLda.params.timing ∧ t.accesses ≠ [] ∧
      p.bus.run t.accesses (atLda.mem.write 0x4000 0x55#8, 0) = some (atLda.mem.write 0x4000 0x55#8, 1)) ∧
    atLda.pc ≠ none ∧ B.run [.read 0x0200#16 0xEA#8] 0 = some 1 :=
  ⟨⟨rfl, rfl, by decide +kernel, by decide +kernel⟩, nofun, rfl⟩

/-- Each clause at the two ends of its region; a region behind another one; a mirror whose cell is its own; a row behind others, for
a read and for a write. -/
theorem witness_TheBusAnswersAsItsParameterSays :
    let rom : Region := ⟨0x8000#16, 0xFFFF#16, .rom⟩
    let ppu : Region := ⟨0x2000#16, 0x3FFF#16, .device⟩
    let ram : Region := ⟨0x0800#16, 0x1FFF#16, .mirror 0x0000#16 0x0800⟩
    let r0 : DeviceRow := ⟨0, 0x2000#16, 0x11#8, 5⟩
    let r1 : DeviceRow := ⟨1, 0x2000#16, 0x22#8, 6⟩
    let r2 : DeviceRow := ⟨1, 0x3FFF#16, 0x33#8, 7⟩
    let p : Params := ⟨[ram, ppu, rom], [r0, r1, r2], [r1, r2], []⟩
    let s := (atNop.withParams p).withDeviceState 1
    (p.busMap = [] ++ ram :: [ppu, rom] ∧ p.busMap = [ram] ++ ppu :: [rom] ∧ p.busMap = [ram, ppu] ++ rom :: [] ∧
      (∀ q ∈ [ram, ppu], q.holds 0x8000#16 = false ∧ q.holds 0xFFFF#16 = false) ∧
      (∀ q ∈ [ram], q.holds 0x2000#16 = false ∧ q.holds 0x3FFF#16 = false) ∧
      p.cell 0x0800#16 = 0x0000#16 ∧ p.cell 0x0000#16 = 0x0000#16 ∧ p.cell 0x1FFF#16 = 0x07FF#16 ∧ p.cell 0x07FF#16 = 0x07FF#16) ∧
    (p.isDevice 0x2000#16 = true ∧ r1.state = s.deviceState ∧ r1.addr = p.cell 0x2000#16 ∧
      p.deviceReads = [r0] ++ r1 :: [r2] ∧ (∀ q ∈ [r0], q.state ≠ r1.state ∨ q.addr ≠ r1.addr)) ∧
    (p.isDevice 0x3FFF#16 = true ∧ r2.state = s.deviceState ∧ r2.addr = p.cell 0x3FFF#16 ∧
      p.deviceWrites = [r1] ++ r2 :: [] ∧ (∀ q ∈ [r1], q.state ≠ r2.state ∨ q.addr ≠ r2.addr ∨ q.byte ≠ r2.byte)) :=
  ⟨⟨rfl, rfl, rfl, by decide, by decide, by decide, by decide, by decide, by decide⟩,
   ⟨by decide, rfl, by decide, rfl, by decide⟩, by decide, rfl, by decide, rfl, by decide⟩

end Sys2Proof.Tests
end

section
/-! Proofs of the statements about the state and its invariants (10_state.md). First, what each operation of an instruction does, written
as updates of the state it is given, so that the field lemmas of Laws/State.lean and Laws/Ops.lean say the rest. -/

namespace Sys2Proof.Machine

@[simp] theorem setReg_a (s : State) (v : Byte) : s.setReg .a v = s.withA v := rfl
@[simp] theorem setReg_x (s : State) (v : Byte) : s.setReg .x v = s.withX v := rfl
@[simp] theorem setReg_y (s : State) (v : Byte) : s.setReg .y v = s.withY v := rfl
@[simp] theorem withP_withP (s : State) (v w : Byte) : (s.withP v).withP w = s.withP w := rfl

@[simp] theorem loadReg_eq (r : Reg) (src : Source) (s : State) :
    loadReg r src s = ((src.read s).2.setReg r (src.read s).1).withP (setZNBits s.p (src.read s).1) := by
  simp [loadReg, result_eq]

@[simp] theorem storeReg_eq (r : Reg) (f : AddrForm) (s : State) :
    storeReg r f s = (resolve f s).st.busWrite (resolve f s).ea (s.reg r) := rfl

@[simp] theorem logicA_eq (op : Byte → Byte → Byte) (src : Source) (s : State) :
    logicA op src s = ((src.read s).2.withA (op s.a (src.read s).1)).withP (setZNBits s.p (op s.a (src.read s).1)) := by
  simp [logicA, result_eq]

@[simp] theorem bitTest_eq (f : AddrForm) (s : State) :
    bitTest f s = ((Source.memory f).read s).2.withP (bitTestBits s.p s.a ((Source.memory f).read s).1) := rfl

/-- The status byte after an addition (42_logic_arith.md R165, R166). -/
def sumBits (p a m : Byte) (c : Bool) : Byte :=
  setZNBits (setFlag (setFlag p .c (sumCarry a m c)) .v (sumOverflow a m c)) (sumByte a m c)

@[simp] theorem addToA_eq (g : Byte → Byte) (src : Source) (s : State) :
    addToA g src s = ((src.read s).2.withA (sumByte s.a (g (src.read s).1) (s.flag .c))).withP
      (sumBits s.p s.a (g (src.read s).1) (s.flag .c)) := by
  simp [addToA, result_eq, sumBits]
  rfl

@[simp] theorem compareReg_eq (r : Reg) (src : Source) (s : State) :
    compareReg r src s = (src.read s).2.withP (compareBits s.p (s.reg r) (src.read s).1) := rfl

@[simp] theorem stepMemory_eq (g : Byte → Byte) (f : AddrForm) (s : State) :
    stepMemory g f s = (((Source.memory f).read s).2.busWrite (resolve f s).ea (g ((Source.memory f).read s).1)).withP
      (setZNBits s.p (g ((Source.memory f).read s).1)) := by
  simp [stepMemory, modify_memory]

/-- The status byte after a shift or rotate that gives `r` (43_incdec_shift.md R187). -/
def shiftBits (p : Byte) (r : Byte × Bool) : Byte := setZNBits (setFlag p .c r.2) r.1

@[simp] theorem shiftPlace_accumulator_eq (op : Byte → Bool → Byte × Bool) (s : State) :
    shiftPlace op .accumulator s = (s.withA (op s.a (s.flag .c)).1).withP (shiftBits s.p (op s.a (s.flag .c))) := rfl

@[simp] theorem shiftPlace_memory_eq (op : Byte → Bool → Byte × Bool) (f : AddrForm) (s : State) :
    shiftPlace op (.memory f) s =
      (((Source.memory f).read s).2.busWrite (resolve f s).ea (op ((Source.memory f).read s).1 (s.flag .c)).1).withP
        (shiftBits s.p (op ((Source.memory f).read s).1 (s.flag .c))) := by
  simp [shiftPlace, modify_memory, shiftBits]

@[simp] theorem jumpTo_eq (f : AddrForm) (s : State) : jumpTo f s = (resolve f s).st.withPc (some (resolve f s).ea) := rfl

@[simp] theorem returnFromCall_eq (s : State) : returnFromCall s = s.pullAddr.2.withPc (some (s.pullAddr.1 + 1#16)) := rfl

@[simp] theorem pullA_eq (s : State) : pullA s = (s.pull.2.withA s.pull.1).withP (setZNBits s.p s.pull.1) := by
  simp [pullA, result_eq]

@[simp] theorem pullP_eq (s : State) : pullP s = s.pull.2.withP (pulledStatus s.pull.1) := rfl

/-- A branch changes PC only. -/
@[simp] theorem branchIf_eq (cond : Bool) (off : Byte) (s : State) (pc : Addr) :
    branchIf cond off s pc = s.withPc (if cond then some (relativeTarget pc off) else s.pc) := by
  cases cond <;> rfl

@[simp] theorem callTo_eq (target : Addr) (s : State) (pc : Addr) :
    callTo target s pc = (s.pushAddr (pc - 1#16)).withPc (some target) := rfl

@[simp] theorem breakFrom_eq (s : State) (pc : Addr) :
    breakFrom s pc = s.takeException (pc + 1#16) (pushedByInstruction s.p) irqBrkVector := rfl

@[simp] theorem beginCall_p (s : State) : s.beginCall.p = s.p := rfl
@[simp] theorem beginCall_params (s : State) : s.beginCall.params = s.params := rfl
@[simp] theorem beginCall_mem (s : State) : s.beginCall.mem = s.mem := rfl

theorem withPcValue_next {s t : State} {k : Addr → State} :
    withPcValue s k = .next t ↔ ∃ pc, s.pc = some pc ∧ t = k pc := by
  unfold withPcValue
  cases s.pc <;> simp [eq_comm]

end Sys2Proof.Machine
end

section
/-! The invariant: bit 5 of P (10_state.md R25) and the canonical form of the memory, kept with the parameters. The bus part holds
of all work that meets the bus in its accesses only; the status part is read off the effects of the instructions. -/

namespace Sys2Proof.Machine

/-- A run of accesses on the bus of the parameters keeps the bytes it holds in canonical form. -/
theorem bus_run_wf {q : Params} {l : List Access} : ∀ {c c' : Memory × Nat}, q.bus.run l c = some c' → c.1.wf = true → c'.1.wf = true := by
  induction l with
  | nil => intro c c' h w; cases h; exact w
  | cons x l ih =>
    intro c c' h w
    cases x with
    | read a v =>
      simp only [Bus.run] at h
      split at h
      · exact ih h w
      · cases h
    | write a v => exact ih h (writeByte_wf w q a v)

/-- Work that meets the bus in its accesses only keeps the parameters and the canonical form of the memory. -/
theorem ThroughBus.keeps_bus {α : Type} {f : State → α × State} (h : ThroughBus f) (s : State) :
    (f s).2.params = s.params ∧ (s.mem.wf = true → (f s).2.mem.wf = true) := by
  obtain ⟨_, _, hp, hr, _⟩ := h.own s
  exact ⟨hp, bus_run_wf hr⟩

/-- An instruction keeps the parameters and the canonical form of the memory. -/
theorem exec_keeps_bus {i : Instr} {s t : State} (h : exec i s = .next t) :
    t.params = s.params ∧ (s.mem.wf = true → t.mem.wf = true) := by
  have := (exec_throughBus i).keeps_bus s
  simpa only [stateAfter, h] using this

/-- The state in which a fetched instruction is run. -/
theorem fetchInstr_ok {s v : State} {pc : Addr} {i : Instr} (h : s.fetchInstr pc = .ok (i, v)) :
    ∃ f, (i, v) = (s.fetchByte pc).2.fetchOperands (addrPlus pc 1) f := by
  simp only [State.fetchInstr] at h
  split at h
  · cases h
  · rename_i r _
    exact ⟨r.form, by injection h with h; exact h.symm⟩

/-- The fetch of an instruction changes PC, the devices' state and the list of accesses only. -/
theorem fetchInstr_ok_frame {s v : State} {pc : Addr} {i : Instr} (h : s.fetchInstr pc = .ok (i, v)) :
    v.p = s.p ∧ v.params = s.params ∧ v.mem = s.mem := by
  obtain ⟨f, hf⟩ := fetchInstr_ok h
  rw [show v = ((s.fetchByte pc).2.fetchOperands (addrPlus pc 1) f).2 from congrArg Prod.snd hf]
  simp

/-- No state change of an instruction clears bit 5 of P: the P it leaves is the old one, one written by `setFlag`, or a pulled one, and
the `bit5` lemmas of Laws/Flags.lean speak of these. -/
theorem Effect.keeps_bit5 {m : Mnemonic} {o : Mode} {k : State → State} (h : Effect m o k) {s : State}
    (hs : s.p.getLsbD 5 = true) : (k s).p.getLsbD 5 = true := by
  cases h <;> simp [hs, result_eq, sumBits, shiftBits]

theorem PcEffect.keeps_bit5 {m : Mnemonic} {k : State → Addr → State} (h : PcEffect m k) {s : State}
    (hs : s.p.getLsbD 5 = true) (pc : Addr) : (k s pc).p.getLsbD 5 = true := by
  cases h <;> simp [hs]

/-- An instruction that completes is a state change, or a state change from the value of PC. -/
theorem exec_next_effect {i : Instr} {s t : State} (h : exec i s = .next t) :
    (∃ k, Effect i.mnemonic i.mode k ∧ t = k s) ∨ (∃ k pc, PcEffect i.mnemonic k ∧ s.pc = some pc ∧ t = k s pc) := by
  obtain ⟨_, _, rfl, rfl, ⟨k, hk, he⟩ | ⟨k, hk, he⟩⟩ := exec_effect i
  · rw [he] at h
    injection h with h
    exact .inl ⟨k, hk, h.symm⟩
  · rw [he, withPcValue_next] at h
    obtain ⟨pc, hpc, ht⟩ := h
    exact .inr ⟨k, pc, hk, hpc, ht⟩

theorem exec_keeps_bit5 {i : Instr} {s t : State} (h : exec i s = .next t) (hs : s.p.getLsbD 5 = true) :
    t.p.getLsbD 5 = true := by
  obtain ⟨k, hk, rfl⟩ | ⟨k, pc, hk, _, rfl⟩ := exec_next_effect h
  · exact hk.keeps_bit5 hs
  · exact hk.keeps_bit5 hs pc

/-- Taking an exception meets the invariant whatever P was, and keeps the parameters. -/
theorem takeException_inv {s : State} (w : s.mem.wf = true) (ret : Addr) (status : Byte) (vector : Addr) :
    (s.takeException ret status vector).Inv ∧ (s.takeException ret status vector).params = s.params :=
  ⟨⟨by simp, takeException_wf w ret status vector⟩, by simp⟩

theorem step_keeps_inv {s t : State} (hs : s.Inv) (h : step s = .next t) : t.Inv ∧ t.params = s.params := by
  obtain ⟨pc, -, ⟨-, rfl⟩ | ⟨-, -, rfl⟩ | ⟨-, -, i, v, u, hf, he, rfl⟩⟩ := step_cases h
  · exact takeException_inv (s := s.beginCall.withNmiPending false) hs.2 pc (pushedByInterrupt s.p) nmiVector
  · exact takeException_inv (s := s.beginCall) hs.2 pc (pushedByInterrupt s.p) irqBrkVector
  · obtain ⟨hp, hq, hm⟩ := fetchInstr_ok_frame hf
    obtain ⟨hu, hw⟩ := exec_keeps_bus he
    have h5 := exec_keeps_bit5 he (hp ▸ hs.1)
    exact ⟨⟨h5, hw (hm ▸ hs.2)⟩, hu.trans hq⟩

/-- What the caller does keeps the invariant and the parameters. -/
theorem applyEvent_keeps_inv {e : CallerEvent} {s t : State} (hs : s.Inv) (h : applyEvent e s = .next t) :
    t.Inv ∧ t.params = s.params := by
  cases e with
  | step => exact step_keeps_inv hs h
  | powerOn => cases h; exact ⟨⟨show (0x34#8).getLsbD 5 = true by decide, hs.2⟩, rfl⟩
  | reset =>
    cases h
    simpa [State.resetRoutine, State.Inv] using hs.2
  | busWrite a v => cases h; exact ⟨⟨hs.1, externalWrite_wf hs.2 a v⟩, rfl⟩
  | nmiRequest | irqLine | devicesGoOn => cases h; exact ⟨hs, rfl⟩

theorem runSchedule_keeps_inv (es : List CallerEvent) : ∀ {s t : State}, s.Inv → runSchedule es s = .next t →
    t.Inv ∧ t.params = s.params := by
  induction es with
  | nil => intro s t hs h; cases h; exact ⟨hs, rfl⟩
  | cons e es ih =>
    intro s t hs h
    simp only [runSchedule] at h
    split at h
    · rename_i u hu
      obtain ⟨hi, hp⟩ := applyEvent_keeps_inv hs hu
      obtain ⟨hi', hp'⟩ := ih hi h
      exact ⟨hi', hp'.trans hp⟩
    · cases h
    · cases h

end Sys2Proof.Machine
end

section
namespace Sys2Proof.Proofs

open Sys2Proof.Machine

/-- Settles O17, by the kinds of a step: an entry rewrites P through `setFlag`, and every instruction keeps bit 5 and the bus. -/
theorem everyStepKeepsTheInvariant : Obligations.EveryStepKeepsTheInvariant :=
  fun _ _ => step_keeps_inv

/-- Settles O18, by induction on the schedule. -/
theorem everyScheduleKeepsTheInvariant : Obligations.EveryScheduleKeepsTheInvariant :=
  fun es _ _ => runSchedule_keeps_inv es

/-- Settles O15. -/
theorem powerOnValues : Obligations.PowerOnValues :=
  fun _ => ⟨rfl, rfl⟩

/-- Settles O19. -/
theorem theResetStateMeetsTheInvariant : Obligations.TheResetStateMeetsTheInvariant :=
  ⟨by decide, reset_mem_wf⟩

/-- Settles O21: `getLsbD_setBit` says what every bit of the byte becomes. -/
theorem setBitWritesOneBit : Obligations.SetBitWritesOneBit := by
  refine ⟨rfl, fun p k j b hk hj => ⟨?_, rfl, fun _ => ⟨rfl, rfl⟩⟩⟩
  rw [getBit, getLsbD_setBit p hk b j hj]
  by_cases h5 : j = 5 <;> simp [h5, getBit]

end Sys2Proof.Proofs
end

section
/-! Which instructions change a register or a flag (10_state.md R22, R23, R27 to R34): the effects of all the others leave it alone. -/

namespace Sys2Proof.Machine

/-! The registers. In each lemma the first line names the effects that write the register; the field lemmas say that the others do not. -/

theorem Effect.a_unchanged {m : Mnemonic} {o : Mode} {k : State → State} (h : Effect m o k)
    (hm : m ∉ [Mnemonic.lda, .pla, .txa, .tya, .and, .eor, .ora, .adc, .sbc])
    (ho : m ∈ [Mnemonic.asl, .lsr, .rol, .ror] → o ≠ .accumulator) (s : State) : (k s).a = s.a := by
  cases h
  case lda | pla | txa | tya | and | eor | ora | adc | sbc => simp at hm
  case shiftA _ hs => exact absurd rfl (ho hs)
  all_goals simp [result_eq]

theorem Effect.x_unchanged {m : Mnemonic} {o : Mode} {k : State → State} (h : Effect m o k)
    (hm : m ∉ [Mnemonic.ldx, .tax, .tsx, .inx, .dex]) (s : State) : (k s).x = s.x := by
  cases h
  case ldx | tax | tsx | inx | dex => simp at hm
  all_goals simp [result_eq]

theorem Effect.y_unchanged {m : Mnemonic} {o : Mode} {k : State → State} (h : Effect m o k)
    (hm : m ∉ [Mnemonic.ldy, .tay, .iny, .dey]) (s : State) : (k s).y = s.y := by
  cases h
  case ldy | tay | iny | dey => simp at hm
  all_goals simp [result_eq]

theorem Effect.sp_unchanged {m : Mnemonic} {o : Mode} {k : State → State} (h : Effect m o k)
    (hm : m ∉ [Mnemonic.txs, .jsr, .rts, .brk, .rti, .pha, .php, .pla, .plp]) (s : State) : (k s).sp = s.sp := by
  cases h
  case txs | rts | rti | pha | php | pla | plp => simp at hm
  all_goals simp [result_eq]

/-- BRK, JSR and the branches write no data register. -/
theorem PcEffect.reg_unchanged {m : Mnemonic} {k : State → Addr → State} (h : PcEffect m k) (s : State) (pc : Addr) :
    (k s pc).a = s.a ∧ (k s pc).x = s.x ∧ (k s pc).y = s.y := by
  cases h <;> simp

theorem PcEffect.sp_unchanged {m : Mnemonic} {k : State → Addr → State} (h : PcEffect m k)
    (hm : m ∉ [Mnemonic.txs, .jsr, .rts, .brk, .rti, .pha, .php, .pla, .plp]) (s : State) (pc : Addr) : (k s pc).sp = s.sp := by
  cases h
  case brk | jsr => simp at hm
  case branch => simp

/-! The flags. -/

/-- The "written by" lists of 10_state.md R28 and R29, which are one list. -/
def znWriters : List Mnemonic :=
  [.lda, .ldx, .ldy, .tax, .tay, .txa, .tya, .tsx, .pla, .and, .eor, .ora, .adc, .sbc,
    .inc, .dec, .inx, .iny, .dex, .dey, .asl, .lsr, .rol, .ror, .bit, .cmp, .cpx, .cpy, .plp, .rti]

/-- The "written by" lists of the flags (10_state.md R27 to R33). -/
def flagWriters : Flag → List Mnemonic
  | .c => [.adc, .sbc, .cmp, .cpx, .cpy, .asl, .lsr, .rol, .ror, .clc, .sec, .plp, .rti]
  | .z => znWriters
  | .i => [.sei, .cli, .brk, .plp, .rti]
  | .d => [.sed, .cld, .plp, .rti]
  | .b => [.plp, .rti]
  | .v => [.adc, .sbc, .bit, .clv, .plp, .rti]
  | .n => znWriters

/-- A flag is not one that a mnemonic of its list writes. -/
theorem flag_ne {m : Mnemonic} {f g : Flag} (hm : m ∉ flagWriters f) (hg : m ∈ flagWriters g) : f ≠ g :=
  fun e => hm (e ▸ hg)

/-- PLP and RTI write every flag. -/
theorem pullers_write_all (f : Flag) : .plp ∈ flagWriters f ∧ .rti ∈ flagWriters f := by
  cases f <;> decide

theorem shifts_write_czn : ∀ g ∈ [Flag.c, .z, .n], ∀ m ∈ [Mnemonic.asl, .lsr, .rol, .ror], m ∈ flagWriters g := by
  decide

/-- The effects by the flags they write: Z and N; C beside them; V beside them; V, Z and N; one flag; all. -/
theorem Effect.flag_unchanged {m : Mnemonic} {o : Mode} {k : State → State} (h : Effect m o k) {f : Flag}
    (hm : m ∉ flagWriters f) (s : State) : (k s).flag f = s.flag f := by
  cases h
  case lda | ldx | ldy | tax | tay | txa | tya | tsx | pla | and | eor | ora | inc | dec | inx | iny | dex | dey =>
    have hz := flag_ne hm (g := .z) (by decide)
    have hn := flag_ne hm (g := .n) (by decide)
    simp [State.flag, result_eq, getFlag_setZNBits, hz, hn]
  case cmp | cpx | cpy =>
    have hc := flag_ne hm (g := .c) (by decide)
    have hz := flag_ne hm (g := .z) (by decide)
    have hn := flag_ne hm (g := .n) (by decide)
    simp [State.flag, compareBits, hc, hz, hn]
  case shiftA _ hs | shiftM _ hs _ =>
    have hc := flag_ne hm (shifts_write_czn .c (by decide) m hs)
    have hz := flag_ne hm (shifts_write_czn .z (by decide) m hs)
    have hn := flag_ne hm (shifts_write_czn .n (by decide) m hs)
    simp [State.flag, shiftBits, getFlag_setZNBits, hc, hz, hn]
  case adc | sbc =>
    have hc := flag_ne hm (g := .c) (by decide)
    have hv := flag_ne hm (g := .v) (by decide)
    have hz := flag_ne hm (g := .z) (by decide)
    have hn := flag_ne hm (g := .n) (by decide)
    simp [State.flag, sumBits, getFlag_setZNBits, hc, hv, hz, hn]
  case bit =>
    have hv := flag_ne hm (g := .v) (by decide)
    have hz := flag_ne hm (g := .z) (by decide)
    have hn := flag_ne hm (g := .n) (by decide)
    simp [State.flag, bitTestBits, hv, hz, hn]
  case clc | sec => simp [State.flag, flag_ne hm (g := .c) (by decide)]
  case cld | sed => simp [State.flag, flag_ne hm (g := .d) (by decide)]
  case cli | sei => simp [State.flag, flag_ne hm (g := .i) (by decide)]
  case clv => simp [State.flag, flag_ne hm (g := .v) (by decide)]
  case plp => exact absurd (pullers_write_all f).1 hm
  case rti => exact absurd (pullers_write_all f).2 hm
  all_goals simp [State.flag]

theorem PcEffect.flag_unchanged {m : Mnemonic} {k : State → Addr → State} (h : PcEffect m k) {f : Flag}
    (hm : m ∉ flagWriters f) (s : State) (pc : Addr) : (k s pc).flag f = s.flag f := by
  cases h
  case brk => simp [State.flag, flag_ne hm (g := .i) (by decide)]
  all_goals simp [State.flag]

end Sys2Proof.Machine
end

section
namespace Sys2Proof.Proofs

open Sys2Proof.Machine

/-- Settles O54, by the effects of the instructions that are no writers. -/
theorem registersChangeOnlyByTheirWriters : Obligations.RegistersChangeOnlyByTheirWriters := by
  intro i s t h
  obtain ⟨k, hk, rfl⟩ | ⟨k, pc, hk, -, rfl⟩ := exec_next_effect h
  · refine ⟨fun hne => ?_, fun hne => ?_, fun hne => ?_, fun hne => ?_⟩
    · refine Decidable.byContradiction fun hn => ?_
      rw [not_or] at hn
      exact hne (hk.a_unchanged hn.1 (fun hs ho => hn.2 ⟨hs, ho⟩) s)
    · exact Decidable.byContradiction fun hn => hne (hk.x_unchanged hn s)
    · exact Decidable.byContradiction fun hn => hne (hk.y_unchanged hn s)
    · exact Decidable.byContradiction fun hn => hne (hk.sp_unchanged hn s)
  · obtain ⟨ha, hx, hy⟩ := hk.reg_unchanged s pc
    exact ⟨fun hne => absurd ha hne, fun hne => absurd hx hne, fun hne => absurd hy hne,
      fun hne => Decidable.byContradiction fun hn => hne (hk.sp_unchanged hn s pc)⟩

/-- Settles O55, by the effects of the instructions that are no writers. -/
theorem flagsChangeOnlyByTheirWriters : Obligations.FlagsChangeOnlyByTheirWriters := by
  unfold Obligations.FlagsChangeOnlyByTheirWriters
  intro setsZN writers i s t f h hne
  have hw : writers f = flagWriters f := by cases f <;> rfl
  rw [hw]
  refine Decidable.byContradiction fun hn => ?_
  obtain ⟨k, hk, rfl⟩ | ⟨k, pc, hk, -, rfl⟩ := exec_next_effect h
  · exact hne (hk.flag_unchanged hn s)
  · exact hne (hk.flag_unchanged hn s pc)

end Sys2Proof.Proofs
end

section
/-! Flags that no work reads: B (10_state.md R30) and D (10_state.md R31; 42_logic_arith.md R167). Work ignores a flag when clearing the
flag before it changes neither its value nor, but for that flag, the state after it. -/

namespace Sys2Proof.Machine

/-- A status byte with one flag cleared. -/
def clearFlag (p : Byte) (g : Flag) : Byte := p &&& ~~~(1#8 <<< g.bit)

theorem getLsbD_clearFlag (p : Byte) (g : Flag) {j : Nat} (hj : j < 8) :
    (clearFlag p g).getLsbD j = (p.getLsbD j && decide (j ≠ g.bit)) := by
  have h : ∀ j : Fin 8, (~~~(1#8 <<< g.bit)).getLsbD j = decide (j.val ≠ g.bit) := by cases g <;> decide
  rw [clearFlag, BitVec.getLsbD_and, h ⟨j, hj⟩]

@[simp] theorem clearFlag_clearFlag (p : Byte) (g : Flag) : clearFlag (clearFlag p g) g = clearFlag p g := by
  simp [clearFlag, BitVec.and_assoc]

theorem getFlag_clearFlag_of_ne (p : Byte) {f g : Flag} (h : f ≠ g) : getFlag (clearFlag p g) f = getFlag p f := by
  have hb : f.bit ≠ g.bit := fun e => h (Flag.bit_inj e)
  simp [getFlag, getBit, getLsbD_clearFlag p g f.bit_lt, hb]

/-- Writing a flag does not look at another one. -/
@[simp] theorem clearFlag_setFlag_clearFlag (p : Byte) (f g : Flag) (b : Bool) :
    clearFlag (setFlag (clearFlag p g) f b) g = clearFlag (setFlag p f b) g := by
  apply BitVec.eq_of_getLsbD_eq
  intro j hj
  rw [getLsbD_clearFlag _ g hj, getLsbD_clearFlag _ g hj, setFlag, setFlag, getLsbD_setBit _ f.bit_lt b j hj,
    getLsbD_setBit _ f.bit_lt b j hj, getLsbD_clearFlag _ g hj]
  by_cases hg : j = g.bit <;> simp [hg]

/-- A status byte computed from another one ignores a flag: cleared or not, the results differ at most in it. -/
def StatusIgnores (g : Flag) (u : Byte → Byte) : Prop := ∀ p, clearFlag (u (clearFlag p g)) g = clearFlag (u p) g

namespace StatusIgnores

variable {g : Flag}

theorem comp {u w : Byte → Byte} (hu : StatusIgnores g u) (hw : StatusIgnores g w) : StatusIgnores g (fun p => w (u p)) :=
  fun p => by rw [← hw, hu, hw]

theorem setFlag (f : Flag) (b : Bool) : StatusIgnores g (fun p => Machine.setFlag p f b) :=
  fun p => clearFlag_setFlag_clearFlag p f g b

theorem setZNBits (v : Byte) : StatusIgnores g (fun p => Machine.setZNBits p v) :=
  (setFlag .z _).comp (setFlag .n _)

theorem compareBits (r m : Byte) : StatusIgnores g (fun p => Machine.compareBits p r m) :=
  ((setFlag .c _).comp (setFlag .z _)).comp (setFlag .n _)

theorem bitTestBits (a m : Byte) : StatusIgnores g (fun p => Machine.bitTestBits p a m) :=
  ((setFlag .z _).comp (setFlag .v _)).comp (setFlag .n _)

theorem sumBits (a m : Byte) (c : Bool) : StatusIgnores g (fun p => Machine.sumBits p a m c) :=
  ((setFlag .c _).comp (setFlag .v _)).comp (setZNBits _)

theorem shiftBits (r : Byte × Bool) : StatusIgnores g (fun p => Machine.shiftBits p r) :=
  (setFlag .c _).comp (setZNBits _)

theorem const (v : Byte) : StatusIgnores g (fun _ => v) := fun _ => rfl

end StatusIgnores

/-- The state with one flag cleared. -/
def State.eraseFlag (g : Flag) (s : State) : State := s.withP (clearFlag s.p g)

/-- Work ignores a flag. -/
def IgnoresFlag (g : Flag) {α : Type} (f : State → α × State) : Prop :=
  ∀ s, (f (s.eraseFlag g)).1 = (f s).1 ∧ (f (s.eraseFlag g)).2.eraseFlag g = (f s).2.eraseFlag g

namespace IgnoresFlag

variable {g : Flag}

/-- One piece after another. -/
theorem bind {α β : Type} {f : State → α × State} {h : α → State → β × State} (hf : IgnoresFlag g f)
    (hh : ∀ a, IgnoresFlag g (h a)) : IgnoresFlag g (fun s => h (f s).1 (f s).2) := by
  intro s
  obtain ⟨e1, e2⟩ := hf s
  obtain ⟨l1, l2⟩ := hh (f s).1 (f (s.eraseFlag g)).2
  obtain ⟨r1, r2⟩ := hh (f s).1 (f s).2
  rw [e2] at l1 l2
  simp only [e1]
  exact ⟨l1.symm.trans r1, l2.symm.trans r2⟩

theorem congr {α : Type} {f h : State → α × State} (hf : IgnoresFlag g f) (e : ∀ s, f s = h s) : IgnoresFlag g h := funext e ▸ hf

/-- Work that carries any status byte along unread. -/
theorem carry {α : Type} {f : State → α × State} (h : ∀ s p, f (s.withP p) = ((f s).1, (f s).2.withP p)) : IgnoresFlag g f := by
  intro s
  have hp : (f s).2.p = s.p := congrArg (·.2.p) (h s s.p)
  simp only [State.eraseFlag, h, hp]
  exact ⟨trivial, congrArg (f s).2.withP (clearFlag_clearFlag s.p g)⟩

/-- Looking at P where the flag makes no difference. -/
theorem get {α : Type} {r : Byte → α} (h : ∀ p, r (clearFlag p g) = r p) : IgnoresFlag g (fun s => (r s.p, s)) :=
  fun s => ⟨h s.p, congrArg s.withP (clearFlag_clearFlag s.p g)⟩

/-- Writing P. -/
theorem update {u : Byte → Byte} (h : StatusIgnores g u) : IgnoresFlag g (fun s => ((), s.withP (u s.p))) :=
  fun s => ⟨rfl, congrArg s.withP (h s.p)⟩

/-! The shared operations. -/

theorem flag {f : Flag} (h : f ≠ g) : IgnoresFlag g (fun s => (s.flag f, s)) :=
  get (r := (getFlag · f)) (fun p => getFlag_clearFlag_of_ne p h)

theorem reg (r : Reg) : IgnoresFlag g (fun s => (s.reg r, s)) := carry (fun _ _ => by cases r <;> rfl)

theorem sp : IgnoresFlag g (fun s => (s.sp, s)) := carry (fun _ _ => rfl)

theorem setReg (r : Reg) (v : Byte) : IgnoresFlag g (fun s => ((), s.setReg r v)) := carry (fun _ _ => by cases r <;> rfl)

theorem withSp (v : Byte) : IgnoresFlag g (fun s => ((), s.withSp v)) := carry (fun _ _ => rfl)

theorem withPc (v : Option Addr) : IgnoresFlag g (fun s => ((), s.withPc v)) := carry (fun _ _ => rfl)

theorem setFlag (f : Flag) (b : Bool) : IgnoresFlag g (fun s => ((), s.setFlag f b)) := update (.setFlag f b)

theorem result (r : Reg) (v : Byte) : IgnoresFlag g (fun s => ((), s.result r v)) :=
  (setReg r v).bind (fun _ => update (.setZNBits v))

theorem busRead (a : Addr) : IgnoresFlag g (fun s => s.busRead a) := carry (fun _ _ => rfl)

theorem busReadPair (a b : Addr) : IgnoresFlag g (fun s => s.busReadPair a b) := carry (fun _ _ => rfl)

theorem busWrite (a : Addr) (v : Byte) : IgnoresFlag g (fun s => ((), s.busWrite a v)) := carry (fun _ _ => rfl)

theorem push (v : Byte) : IgnoresFlag g (fun s => ((), s.push v)) := carry (fun _ _ => rfl)

theorem pull : IgnoresFlag g State.pull := carry (fun _ _ => rfl)

theorem pushAddr (a : Addr) : IgnoresFlag g (fun s => ((), s.pushAddr a)) :=
  ((push (hiByte a)).bind (fun _ => push (loByte a))).congr (fun _ => rfl)

theorem pullAddr : IgnoresFlag g State.pullAddr :=
  (pull.bind (fun l => pull.bind (fun h => carry (f := fun s => (w16 l h, s)) (fun _ _ => rfl)))).congr (fun _ => rfl)

theorem takeException (ret : Addr) (status : Byte) (v : Addr) : IgnoresFlag g (fun s => ((), s.takeException ret status v)) :=
  ((pushAddr ret).bind (fun _ => (push status).bind (fun _ => (setFlag .i true).bind (fun _ =>
    (busReadPair v (v + 1#16)).bind (fun t => withPc (some t)))))).congr
    (fun s => by unfold State.takeException State.busRead16; rfl)

/-- An exception whose pushed status byte is made from P without the flag. -/
theorem takeExceptionOf {st : Byte → Byte} (h : ∀ p, st (clearFlag p g) = st p) (ret v : Addr) :
    IgnoresFlag g (fun s => ((), s.takeException ret (st s.p) v)) :=
  (bind (h := fun status s => ((), s.takeException ret status v)) (get h) (fun status => takeException ret status v)).congr
    (fun _ => rfl)

theorem returnFromException : IgnoresFlag g (fun s => ((), s.returnFromException)) :=
  (pull.bind (fun st => (update (.const (pulledStatus st))).bind (fun _ => pullAddr.bind (fun t => withPc (some t))))).congr
    (fun s => by unfold State.returnFromException; rfl)

theorem resolve (f : AddrForm) : IgnoresFlag g (fun s => ((Machine.resolve f s).ea, (Machine.resolve f s).st)) :=
  carry (fun _ _ => by cases f <;> rfl)

theorem source (src : Source) : IgnoresFlag g (fun s => src.read s) := by
  cases src with
  | immediate v => exact carry (fun _ _ => rfl)
  | memory f => exact (resolve f).bind busRead

/-! The meanings. -/

theorem loadReg (r : Reg) (src : Source) : IgnoresFlag g (fun s => ((), Machine.loadReg r src s)) :=
  (source src).bind (fun v => result r v)

theorem storeReg (r : Reg) (f : AddrForm) : IgnoresFlag g (fun s => ((), Machine.storeReg r f s)) :=
  (reg r).bind (fun v => (resolve f).bind (fun ea => busWrite ea v))

theorem logicA (op : Byte → Byte → Byte) (src : Source) : IgnoresFlag g (fun s => ((), Machine.logicA op src s)) :=
  (reg .a).bind (fun a => (source src).bind (fun v => result .a (op a v)))

theorem bitTest (f : AddrForm) : IgnoresFlag g (fun s => ((), Machine.bitTest f s)) :=
  ((reg .a).bind (fun a => (source (.memory f)).bind (fun v => update (.bitTestBits a v)))).congr (fun s => by simp; rfl)

/-- The addition reads C and never D (42_logic_arith.md R165, R167). -/
theorem addToA (hc : .c ≠ g) (m : Byte → Byte) (src : Source) : IgnoresFlag g (fun s => ((), Machine.addToA m src s)) :=
  ((reg .a).bind (fun a => (flag hc).bind (fun c => (source src).bind (fun v => (setReg .a (sumByte a (m v) c)).bind
    (fun _ => update (.sumBits a (m v) c)))))).congr (fun s => by simp; rfl)

theorem compareReg (r : Reg) (src : Source) : IgnoresFlag g (fun s => ((), Machine.compareReg r src s)) :=
  ((reg r).bind (fun a => (source src).bind (fun v => update (.compareBits a v)))).congr (fun s => by simp)

theorem stepMemory (h : Byte → Byte) (f : AddrForm) : IgnoresFlag g (fun s => ((), Machine.stepMemory h f s)) :=
  ((resolve f).bind (fun ea => (busRead ea).bind (fun v => (busWrite ea (h v)).bind
    (fun _ => update (.setZNBits (h v)))))).congr (fun _ => rfl)

/-- Shifts and rotates read C only. -/
theorem shiftPlace (hc : .c ≠ g) (op : Byte → Bool → Byte × Bool) (t : Target) :
    IgnoresFlag g (fun s => ((), Machine.shiftPlace op t s)) := by
  cases t with
  | accumulator =>
    exact (flag hc).bind (fun c => (reg .a).bind (fun a => (setReg .a (op a c).1).bind (fun _ => update (.shiftBits (op a c)))))
  | memory f =>
    exact (flag hc).bind (fun c => (resolve f).bind (fun ea => (busRead ea).bind (fun v =>
      (busWrite ea (op v c).1).bind (fun _ => update (.shiftBits (op v c))))))

theorem jumpTo (f : AddrForm) : IgnoresFlag g (fun s => ((), Machine.jumpTo f s)) :=
  (resolve f).bind (fun ea => withPc (some ea))

theorem returnFromCall : IgnoresFlag g (fun s => ((), Machine.returnFromCall s)) :=
  (pullAddr.bind (fun t => withPc (some (t + 1#16)))).congr (fun _ => rfl)

theorem pullA : IgnoresFlag g (fun s => ((), Machine.pullA s)) := pull.bind (fun v => result .a v)

theorem pullP : IgnoresFlag g (fun s => ((), Machine.pullP s)) := pull.bind (fun v => update (.const (pulledStatus v)))

theorem callTo (a pc : Addr) : IgnoresFlag g (fun s => ((), Machine.callTo a s pc)) :=
  ((pushAddr (pc - 1#16)).bind (fun _ => withPc (some a))).congr (fun _ => rfl)

theorem branchIf (cond : Bool) (off : Byte) (pc : Addr) : IgnoresFlag g (fun s => ((), Machine.branchIf cond off s pc)) :=
  carry (fun _ _ => by cases cond <;> rfl)

end IgnoresFlag
end Sys2Proof.Machine
end

section
/-! The two flags no instruction reads, through the instructions and the step. -/

namespace Sys2Proof.Machine

open Sys2Proof.Claims

/-- The branches look at C, Z, N and V only (44_control.md R205 to R212). -/
theorem branchCondition_clearFlag {g : Flag} (hr : ∀ f ∈ [Flag.c, .z, .n, .v], f ≠ g) (m : Mnemonic) (p : Byte) :
    branchCondition m (clearFlag p g) = branchCondition m p := by
  have hf (f : Flag) (h : f ∈ [Flag.c, .z, .n, .v]) := getFlag_clearFlag_of_ne p (hr f h)
  cases m
  case bcc | bcs => simp [branchCondition, hf .c (by decide)]
  case beq | bne => simp [branchCondition, hf .z (by decide)]
  case bmi | bpl => simp [branchCondition, hf .n (by decide)]
  case bvc | bvs => simp [branchCondition, hf .v (by decide)]
  all_goals rfl

/-- An instruction that never looks at PC ignores a flag other than C, if PHP, where it is the one, pushes the same byte. -/
theorem Effect.ignoresFlag {g : Flag} (hc : .c ≠ g) {m : Mnemonic} {o : Mode} {k : State → State} (h : Effect m o k)
    (hp : m ∈ [Mnemonic.php, .brk] → ∀ p, pushedByInstruction (clearFlag p g) = pushedByInstruction p) :
    IgnoresFlag g (fun s => ((), k s)) := by
  open IgnoresFlag in
  cases h
  case lda src => exact .loadReg .a src
  case ldx src => exact .loadReg .x src
  case ldy src => exact .loadReg .y src
  case sta f => exact .storeReg .a f
  case stx f => exact .storeReg .x f
  case sty f => exact .storeReg .y f
  case tax => exact (reg .a).bind (result .x)
  case tay => exact (reg .a).bind (result .y)
  case txa => exact (reg .x).bind (result .a)
  case tya => exact (reg .y).bind (result .a)
  case tsx => exact sp.bind (result .x)
  case txs => exact (reg .x).bind withSp
  case pha => exact (reg .a).bind push
  case php => exact (get (hp (by decide))).bind push
  case pla => exact .pullA
  case plp => exact .pullP
  case and src => exact .logicA _ src
  case eor src => exact .logicA _ src
  case ora src => exact .logicA _ src
  case bit f => exact .bitTest f
  case adc src => exact .addToA hc _ src
  case sbc src => exact .addToA hc _ src
  case cmp src => exact .compareReg .a src
  case cpx src => exact .compareReg .x src
  case cpy src => exact .compareReg .y src
  case inc f => exact .stepMemory _ f
  case dec f => exact .stepMemory _ f
  case inx => exact (reg .x).bind (fun v => result .x (incByte v))
  case iny => exact (reg .y).bind (fun v => result .y (incByte v))
  case dex => exact (reg .x).bind (fun v => result .x (decByte v))
  case dey => exact (reg .y).bind (fun v => result .y (decByte v))
  case shiftA | shiftM => exact .shiftPlace hc _ _
  case jmp f => exact .jumpTo f
  case rts => exact .returnFromCall
  case clc | cld | cli | clv | sec | sed | sei => exact .setFlag _ _
  case rti => exact returnFromException
  case nop => exact carry (fun _ _ => rfl)

/-- An instruction that reads PC ignores a flag that no branch reads, if BRK, where it is the one, pushes the same byte. -/
theorem PcEffect.ignoresFlag {g : Flag} (hr : ∀ f ∈ [Flag.c, .z, .n, .v], f ≠ g) {m : Mnemonic} {k : State → Addr → State}
    (h : PcEffect m k) (hp : m ∈ [Mnemonic.php, .brk] → ∀ p, pushedByInstruction (clearFlag p g) = pushedByInstruction p)
    (pc : Addr) : IgnoresFlag g (fun s => ((), k s pc)) := by
  open IgnoresFlag in
  cases h
  case brk => exact takeExceptionOf (hp (by decide)) _ _
  case jsr a => exact .callTo a pc
  case branch off _ => exact (get (branchCondition_clearFlag hr m)).bind (fun c => IgnoresFlag.branchIf c off pc)

/-- The state changes of work that ignores a flag, read as a result from the value of PC. -/
theorem withPcValue_ignores {g : Flag} {k : State → Addr → State} (h : ∀ pc, IgnoresFlag g (fun s => ((), k s pc))) (s : State) :
    mapState (·.eraseFlag g) (withPcValue (s.eraseFlag g) (k (s.eraseFlag g))) = mapState (·.eraseFlag g) (withPcValue s (k s)) := by
  have hpc : (s.eraseFlag g).pc = s.pc := rfl
  unfold withPcValue
  rw [hpc]
  cases s.pc with
  | none => rfl
  | some pc => exact congrArg Host.Outcome.next (h pc s).2

/-- An instruction ignores a flag that no instruction but the pushes of a status byte reads. -/
theorem exec_ignoresFlag {g : Flag} (hr : ∀ f ∈ [Flag.c, .z, .n, .v], f ≠ g) (i : Instr)
    (hp : i.mnemonic ∈ [Mnemonic.php, .brk] → ∀ p, pushedByInstruction (clearFlag p g) = pushedByInstruction p) (s : State) :
    mapState (·.eraseFlag g) (exec i (s.eraseFlag g)) = mapState (·.eraseFlag g) (exec i s) := by
  obtain ⟨_, _, rfl, rfl, ⟨k, hk, he⟩ | ⟨k, hk, he⟩⟩ := exec_effect i
  · rw [he, he]
    exact congrArg Host.Outcome.next (hk.ignoresFlag (hr .c (by decide)) hp s).2
  · rw [he, he]
    exact withPcValue_ignores (hk.ignoresFlag hr hp) s

/-- Whether an operand crosses a page is not decided by P. -/
@[simp] theorem operandCrosses_withP (o : Operand) (s : State) (p : Byte) : operandCrosses o (s.withP p) = operandCrosses o s := by
  cases o with
  | memory f => cases f <;> rfl
  | _ => rfl

theorem cycleCount_eraseFlag {g : Flag} (hr : ∀ f ∈ [Flag.c, .z, .n, .v], f ≠ g) (i : Instr) (s : State) :
    cycleCount i (s.eraseFlag g) = cycleCount i s := by
  simp [cycleCount, branchExtra, State.eraseFlag, branchCondition_clearFlag hr]

theorem eraseFlag_eraseFlag (g : Flag) (s : State) : (s.eraseFlag g).eraseFlag g = s.eraseFlag g :=
  congrArg s.withP (clearFlag_clearFlag s.p g)

theorem fetchOperands_withP (s : State) (pc : Addr) (f : OpForm) (p : Byte) :
    (s.withP p).fetchOperands pc f = ((s.fetchOperands pc f).1, (s.fetchOperands pc f).2.withP p) := by
  cases f <;> rfl

/-- The fetch carries P along unread. -/
theorem fetchInstr_eraseFlag (g : Flag) (s : State) (pc : Addr) : (s.eraseFlag g).fetchInstr pc =
    match s.fetchInstr pc with
    | .error o => .error (o.1, o.2.eraseFlag g)
    | .ok r => .ok (r.1, r.2.eraseFlag g) := by
  have hb : (s.eraseFlag g).fetchByte pc = ((s.fetchByte pc).1, (s.fetchByte pc).2.eraseFlag g) := rfl
  simp only [State.fetchInstr, hb]
  cases opRow (s.fetchByte pc).1 with
  | none => rfl
  | some r => simp [State.eraseFlag, fetchOperands_withP]

theorem charge_mapState (f : State → State) (hf : ∀ s n, f (s.withCycles n) = (f s).withCycles n) (n : Nat) (r : Result) :
    mapState f (charge n r) = charge n (mapState f r) := by
  cases r with
  | next t => exact congrArg Host.Outcome.next (hf t _)
  | fault e => cases e <;> rfl
  | refused e => rfl

/-- The erased bit of the statement is the flag B. -/
theorem eraseB_eq : eraseB = State.eraseFlag .b := rfl

/-- The erased bit of the statement is the flag D. -/
theorem eraseD_eq : eraseD = State.eraseFlag .d := rfl

/-- A pushed status byte has bit 4 fixed: set by an instruction, clear by an interrupt. -/
theorem pushedByInstruction_clear_b (p : Byte) : pushedByInstruction (clearFlag p .b) = pushedByInstruction p := by
  apply BitVec.eq_of_getLsbD_eq
  intro j hj
  have h : ∀ j : Fin 8, ((0x30#8).getLsbD j) = (decide (j.val = 4) || decide (j.val = 5)) := by decide
  rw [pushedByInstruction, pushedByInstruction, BitVec.getLsbD_or, BitVec.getLsbD_or, getLsbD_clearFlag p .b hj, h ⟨j, hj⟩]
  by_cases h4 : j = 4 <;> simp [h4, Flag.bit]

theorem pushedByInterrupt_clear_b (p : Byte) : pushedByInterrupt (clearFlag p .b) = pushedByInterrupt p := by
  simp [pushedByInterrupt, clearFlag, Flag.bit, BitVec.and_assoc]

theorem charge_ignores {g : Flag} (n : Nat) {r r' : Result} (h : mapState (·.eraseFlag g) r = mapState (·.eraseFlag g) r') :
    mapState (·.eraseFlag g) (charge n r) = mapState (·.eraseFlag g) (charge n r') := by
  rw [charge_mapState _ (fun _ _ => rfl), charge_mapState _ (fun _ _ => rfl), h]


/-- An interrupt entry ignores a flag other than I that its pushed status byte does not show. -/
theorem enterNmi_ignores {g : Flag} (hp : ∀ p, pushedByInterrupt (clearFlag p g) = pushedByInterrupt p) (pc : Addr) :
    IgnoresFlag g (fun s => ((), s.enterNmi pc)) :=
  ((IgnoresFlag.carry (f := fun s => ((), s.withNmiPending false)) (fun _ _ => rfl)).bind
    (fun _ => .takeExceptionOf hp pc nmiVector)).congr (fun s => by unfold State.enterNmi; rfl)

theorem enterIrq_ignores {g : Flag} (hp : ∀ p, pushedByInterrupt (clearFlag p g) = pushedByInterrupt p) (pc : Addr) :
    IgnoresFlag g (fun s => ((), s.enterIrq pc)) :=
  (IgnoresFlag.takeExceptionOf hp pc irqBrkVector).congr (fun s => by unfold State.enterIrq; rfl)

/-- Whether an IRQ is accepted is decided by no flag but I. -/
theorem irqAccepted_eraseFlag {g : Flag} (hI : .i ≠ g) (s : State) : (s.eraseFlag g).irqAccepted = s.irqAccepted :=
  congrArg (s.irqLine && !·) (getFlag_clearFlag_of_ne s.p hI)

/-- A step ignores a flag that only the pushes of a status byte read, if none of them shows it. -/
theorem step_ignoresFlag {g : Flag} (hr : ∀ f ∈ [Flag.c, .z, .n, .v], f ≠ g) (hI : .i ≠ g)
    (hi : ∀ p, pushedByInstruction (clearFlag p g) = pushedByInstruction p)
    (hq : ∀ p, pushedByInterrupt (clearFlag p g) = pushedByInterrupt p) (s : State) :
    mapState (·.eraseFlag g) (step (s.eraseFlag g)) = mapState (·.eraseFlag g) (step s) := by
  have hpc : (s.eraseFlag g).pc = s.pc := rfl
  have hnmi : (s.eraseFlag g).nmiPending = s.nmiPending := rfl
  have hb : (s.eraseFlag g).beginCall = s.beginCall.eraseFlag g := rfl
  unfold step
  rw [hpc, hnmi, irqAccepted_eraseFlag hI, hb]
  cases s.pc with
  | none => rfl
  | some pc =>
    dsimp only
    split
    · exact charge_ignores _ (congrArg Host.Outcome.next (enterNmi_ignores hq pc s.beginCall).2)
    · split
      · exact charge_ignores _ (congrArg Host.Outcome.next (enterIrq_ignores hq pc s.beginCall).2)
      · rw [fetchInstr_eraseFlag]
        cases s.beginCall.fetchInstr pc with
        | error o => exact congrArg (fun u => Host.Outcome.fault (Fault.unsupportedOpcode o.1 u)) (eraseFlag_eraseFlag g o.2)
        | ok r =>
          dsimp only
          rw [cycleCount_eraseFlag hr]
          exact charge_ignores _ (exec_ignoresFlag hr r.1 (fun _ => hi) r.2)

end Sys2Proof.Machine
end

section
namespace Sys2Proof.Proofs

open Sys2Proof.Machine Sys2Proof.Claims

/-- Settles O57: no flag test is one of B, and both kinds of pushed status byte have its bit fixed. -/
theorem theStoredBreakFlagIsNeverRead : Obligations.TheStoredBreakFlagIsNeverRead := by
  intro s
  rw [eraseB_eq]
  exact step_ignoresFlag (by decide) (by decide) pushedByInstruction_clear_b pushedByInterrupt_clear_b s

end Sys2Proof.Proofs
end

section
/-! The flag D in a pushed status byte (41_transfer_stack.md R149; 45_flags_system.md R228; 60_exceptions.md R245): two runs that push a
status byte with D as it is and with D clear. -/

namespace Sys2Proof.Machine

open Sys2Proof.Claims

/-! Clearing bit 3 of P clears it in the status bytes made from P, and nothing else. -/

theorem pushedByInstruction_and_f7 (p : Byte) : pushedByInstruction (p &&& 0xF7#8) = pushedByInstruction p &&& 0xF7#8 := by
  simp [pushedByInstruction, BitVec.and_or_distrib_right]

theorem pushedByInterrupt_and_f7 (p : Byte) : pushedByInterrupt (p &&& 0xF7#8) = pushedByInterrupt p &&& 0xF7#8 := by
  simp [pushedByInterrupt, BitVec.and_or_distrib_right, BitVec.and_assoc]

theorem setFlag_i_and_f7 (p : Byte) : setFlag (p &&& 0xF7#8) .i true = setFlag p .i true &&& 0xF7#8 := by
  simp [setFlag, setBit, Flag.bit, unusedBit, BitVec.and_or_distrib_right]

/-! One write, of either of two bytes. -/

/-- A read of another cell shows neither byte, where the devices are alike or not looked at. -/
theorem readByte_writeByte_alike {p : Params} {a b : Addr} (h : p.cell b ≠ p.cell a) (m : Memory) (v v' : Byte) {d d' : Nat}
    (hd : d' = d ∨ p.isDevice b = false) : p.readByte (p.writeByte m a v') d' b = p.readByte (p.writeByte m a v) d b := by
  rw [readByte_writeByte_of_ne h, readByte_writeByte_of_ne h]
  rcases hd with rfl | hb
  · rfl
  · exact readByte_count hb m d' d

/-- Where the bytes differ at most in bit 3, so do all reads: the cell written shows its byte, or nothing was stored. -/
theorem readByte_writeByte_masked {p : Params} {a b : Addr} (hb : p.isDevice b = false) {m : Memory} (w : m.wf = true) (v : Byte)
    (d d' : Nat) : p.readByte (p.writeByte m a (v &&& 0xF7#8)) d' b &&& 0xF7#8 = p.readByte (p.writeByte m a v) d b &&& 0xF7#8 := by
  by_cases hc : p.cell b = p.cell a
  · cases hr : p.isRam a with
    | true =>
      have hread (u : Byte) (n : Nat) : p.readByte (p.writeByte m a u) n b = u := by
        simp only [Params.readByte, hb, writeByte_ram hr, hc]
        exact Memory.read_write_same _ u w
      rw [hread, hread, BitVec.and_assoc, BitVec.and_self]
    | false =>
      rw [writeByte_not_ram hr, writeByte_not_ram hr, readByte_count hb m d' d]
  · rw [readByte_writeByte_alike hc m v _ (.inr hb)]

/-- The clause of `OnlyThePushedDDiffers` on the bytes of memory, for memories that differ by the one write. -/
theorem peek_of_masked_write {s t t' : State} {slot : Addr} {m : Memory} {v : Byte} (hp : t.params = s.params)
    (hp' : t'.params = s.params) (hm : t.mem = s.params.writeByte m slot v) (hm' : t'.mem = s.params.writeByte m slot (v &&& 0xF7#8))
    (hw : s.mem.wf = true → m.wf = true) (b : Addr) (hb : s.params.isDevice b = false) :
    (s.params.cell b ≠ s.params.cell slot → t'.peek b = t.peek b) ∧
    (s.mem.wf = true → t'.peek b &&& 0xF7#8 = t.peek b &&& 0xF7#8) := by
  rw [peek_eq, peek_eq, hp, hp', hm, hm']
  exact ⟨fun hc => readByte_writeByte_alike hc m v _ (.inr hb), fun w => readByte_writeByte_masked hb (hw w) v _ _⟩

/-- The state with D cleared is an update of P. -/
theorem eraseD_eq_withP (s : State) : eraseD s = s.withP (s.p &&& 0xF7#8) := rfl

/-- A push of a status byte, with D as it is and with D clear. -/
theorem push_onlyThePushedDDiffers (s : State) (v : Byte) :
    OnlyThePushedDDiffers s (s.push v) ((eraseD s).push (v &&& 0xF7#8)) (stackAddr s.sp) := by
  refine ⟨rfl, fun hd => ?_, ⟨s.accesses, [], v, push_accesses s v, push_accesses (eraseD s) _⟩, fun b hb => ?_⟩
  · rw [push_deviceState, push_deviceState, devicesAfterWrite_of_not_device hd]
    exact devicesAfterWrite_of_not_device hd _ _
  · exact peek_of_masked_write (push_params s v) (push_params (eraseD s) _) (push_mem s v) (push_mem (eraseD s) _) id b hb

/-! The three pushes of an exception, and the vector after them. -/

theorem sub_one_sub_one (b : Byte) : b - 1#8 - 1#8 = b - 2#8 := by bv_omega

theorem framePushed_withP (s : State) (p : Byte) (ret : Addr) (status : Byte) :
    framePushed (s.withP p) ret status = (framePushed s ret status).withP p := by
  have hw (u : State) (a : Addr) (v : Byte) : (u.withP p).busWrite a v = (u.busWrite a v).withP p := rfl
  simp only [framePushed, hw, State.withP_sp]

theorem framePushed_mem (s : State) (ret : Addr) (status : Byte) : (framePushed s ret status).mem =
    s.params.writeByte (s.pushAddr ret).mem (stackAddr (s.sp - 2#8)) status := by
  simp [framePushed, sub_one_sub_one]

theorem framePushed_deviceState (s : State) (ret : Addr) (status : Byte) : (framePushed s ret status).deviceState =
    s.params.devicesAfterWrite (s.pushAddr ret).deviceState (stackAddr (s.sp - 2#8)) status := by
  simp [framePushed, sub_one_sub_one]

theorem framePushed_params (s : State) (ret : Addr) (status : Byte) : (framePushed s ret status).params = s.params := by
  simp [framePushed]

theorem readsAt_pair (s : State) (a b : Addr) : (readsAt [a, b] s).1 = [s.peek a, s.peekAfter a b] := rfl

theorem vectorAfter_eq (s : State) (ret : Addr) (status : Byte) (vector : Addr) : vectorAfter s ret status vector =
    [(framePushed s ret status).peek vector, (framePushed s ret status).peekAfter vector (vector + 1#16)] := by
  rw [vectorAfter, readsAt_pair, ← sub_one_sub_one, framePushed]

/-- The vector after the pushes is decided by the bus and SP. -/
theorem vectorAfter_congr {s u : State} (hp : u.params = s.params) (hm : u.mem = s.mem) (hd : u.deviceState = s.deviceState)
    (hs : u.sp = s.sp) (ret : Addr) (status : Byte) (vector : Addr) :
    vectorAfter u ret status vector = vectorAfter s ret status vector := by
  have em : (framePushed u ret status).mem = (framePushed s ret status).mem := by simp [framePushed, hp, hm, hs]
  have ed : (framePushed u ret status).deviceState = (framePushed s ret status).deviceState := by simp [framePushed, hp, hd, hs]
  have ep : (framePushed u ret status).params = (framePushed s ret status).params := by rw [framePushed_params, framePushed_params, hp]
  rw [vectorAfter_eq, vectorAfter_eq, peek_congr ep em ed, peekAfter_congr ep em ed]

/-- Either status byte leaves the vector as it is, where the vector is apart from the place of the push. -/
theorem vectorAfter_of_apart {s : State} (ret vector : Addr) (status status' : Byte)
    (h : ∀ v ∈ [vector, vector + 1#16], Apart s (stackAddr (s.sp - 2#8)) v) :
    vectorAfter s ret status' vector = vectorAfter s ret status vector := by
  obtain ⟨hlo, dlo⟩ := h vector (by simp)
  obtain ⟨hhi, dhi⟩ := h (vector + 1#16) (by simp)
  have hd (hs : s.params.isDevice (stackAddr (s.sp - 2#8)) = false) :
      (framePushed s ret status').deviceState = (framePushed s ret status).deviceState := by
    rw [framePushed_deviceState, framePushed_deviceState, devicesAfterWrite_of_not_device hs, devicesAfterWrite_of_not_device hs]
  rw [vectorAfter_eq, vectorAfter_eq, peek_eq, peek_eq, State.peekAfter, State.peekAfter, framePushed_mem, framePushed_mem,
    framePushed_params, framePushed_params, readByte_writeByte_alike hlo _ status status' (dlo.imp_left hd),
    readByte_writeByte_alike hhi _ status status' (dhi.imp_left (fun hs => by rw [hd hs]))]

/-- Taking an exception, with D as it is and with D clear, over a bus that answers the vector alike after either status byte. -/
theorem takeException_onlyThePushedDDiffers (s : State) (ret : Addr) (status : Byte) (vector : Addr)
    (h : vectorAfter s ret (status &&& 0xF7#8) vector = vectorAfter s ret status vector) :
    OnlyThePushedDDiffers s (s.takeException ret status vector) ((eraseD s).takeException ret (status &&& 0xF7#8) vector)
      (stackAddr (s.sp - 2#8)) := by
  rw [vectorAfter_eq, vectorAfter_eq] at h
  injection h with hlo h
  injection h with hhi _
  rw [eraseD_eq_withP]
  refine ⟨?_, fun hs => ?_, ⟨s.accesses ++ [.write (stackAddr s.sp) (hiByte ret), .write (stackAddr (s.sp - 1#8)) (loByte ret)],
    [.read vector ((framePushed s ret status).peek vector),
     .read (vector + 1#16) ((framePushed s ret status).peekAfter vector (vector + 1#16))], status, ?_, ?_⟩, fun b hb => ?_⟩
  · apply State.ext
    case pc => simp [eraseD, framePushed_withP, hlo, hhi]
    case p => simp [eraseD, setFlag_i_and_f7]
    all_goals simp [eraseD]
  · simp only [takeException_deviceState, framePushed_withP, framePushed_deviceState, State.withP_deviceState, State.withP_params,
      devicesAfterWrite_of_not_device hs]
  · simp [sub_one_sub_one]
  · simp [sub_one_sub_one, framePushed_withP, hlo, hhi]
  · have hm : (s.takeException ret status vector).mem =
        s.params.writeByte (s.pushAddr ret).mem (stackAddr (s.sp - 2#8)) status := by
      rw [takeException_mem, framePushed_mem]
    have hm' : ((s.withP (s.p &&& 0xF7#8)).takeException ret (status &&& 0xF7#8) vector).mem =
        s.params.writeByte (s.pushAddr ret).mem (stackAddr (s.sp - 2#8)) (status &&& 0xF7#8) := by
      rw [takeException_mem, framePushed_withP, State.withP_mem, framePushed_mem]
    have hp' : ((s.withP (s.p &&& 0xF7#8)).takeException ret (status &&& 0xF7#8) vector).params = s.params := by simp
    exact peek_of_masked_write (takeException_params ..) hp' hm hm' (fun w => pushAddr_wf w ret) b hb

end Sys2Proof.Machine
end

section
/-! Which interrupt a step enters, and the two runs of it with D as it is and with D clear. -/

namespace Sys2Proof.Machine

open Sys2Proof.Claims

theorem step_of_nmi {s : State} {pc : Addr} (hpc : s.pc = some pc) (h : s.nmiPending = true) :
    step s = .next ((s.beginCall.enterNmi pc).withCycles (some interruptCycles)) := by
  unfold step
  simp only [hpc, h, if_true, charge]

theorem step_of_irq {s : State} {pc : Addr} (hpc : s.pc = some pc) (hn : s.nmiPending = false) (h : s.irqAccepted = true) :
    step s = .next ((s.beginCall.enterIrq pc).withCycles (some interruptCycles)) := by
  unfold step
  simp only [hpc, hn, h, Bool.false_eq_true, if_false, if_true, charge]

/-- An interrupt is entered exactly as an IRQ where no NMI is pending. -/
theorem irqAccepted_of_atEntry {s : State} (h : AtEntry s) (hn : s.nmiPending = false) : s.irqAccepted = true := by
  obtain ⟨-, h | ⟨hl, hf⟩⟩ := h
  · rw [hn] at h; cases h
  · simp [State.irqAccepted, hl, hf]

/-- An interrupt is entered from a state `u` with the bus and SP of `s`, with D as it is and with D clear. -/
theorem entry_onlyThePushedDDiffers {s u : State} (hp : u.params = s.params) (hm : u.mem = s.mem)
    (hd : u.deviceState = s.deviceState) (hs : u.sp = s.sp) (pc vector : Addr) (n : Option Nat)
    (h : vectorAfter s pc (pushedByInterrupt s.p &&& 0xF7#8) vector = vectorAfter s pc (pushedByInterrupt s.p) vector) :
    OnlyThePushedDDiffers s ((u.takeException pc (pushedByInterrupt s.p) vector).withCycles n)
      (((eraseD u).takeException pc (pushedByInterrupt (s.p &&& 0xF7#8)) vector).withCycles n) (stackAddr (s.sp - 2#8)) := by
  have halike (status : Byte) := vectorAfter_congr hp hm hd hs pc status vector
  obtain ⟨ht, hdev, hacc, hmem⟩ :=
    takeException_onlyThePushedDDiffers u pc (pushedByInterrupt s.p) vector ((halike _).trans (h.trans (halike _).symm))
  rw [hp] at hdev
  rw [hp, hm] at hmem
  rw [hs] at hdev hacc hmem
  rw [pushedByInterrupt_and_f7]
  exact ⟨congrArg (·.withCycles n) ht, hdev, hacc, hmem⟩

/-- BRK, with D as it is and with D clear. -/
theorem brk_onlyThePushedDDiffers {s : State} {pc : Addr} (hpc : s.pc = some pc)
    (h : vectorAfter s (pc + 1#16) (pushedByInstruction s.p &&& 0xF7#8) irqBrkVector =
      vectorAfter s (pc + 1#16) (pushedByInstruction s.p) irqBrkVector) :
    ∃ t t', exec .brk s = .next t ∧ exec .brk (eraseD s) = .next t' ∧ OnlyThePushedDDiffers s t t' (stackAddr (s.sp - 2#8)) := by
  refine ⟨breakFrom s pc, breakFrom (eraseD s) pc, withPcValue_next.mpr ⟨pc, hpc, rfl⟩, withPcValue_next.mpr ⟨pc, hpc, rfl⟩, ?_⟩
  rw [breakFrom_eq, breakFrom_eq, show (eraseD s).p = s.p &&& 0xF7#8 from rfl, pushedByInstruction_and_f7]
  exact takeException_onlyThePushedDDiffers s _ _ _ h

/-- The entry of an NMI, with D as it is and with D clear. -/
theorem nmi_onlyThePushedDDiffers {s : State} {pc : Addr} (hpc : s.pc = some pc) (hn : s.nmiPending = true)
    (h : vectorAfter s pc (pushedByInterrupt s.p &&& 0xF7#8) nmiVector = vectorAfter s pc (pushedByInterrupt s.p) nmiVector) :
    ∃ t t', step s = .next t ∧ step (eraseD s) = .next t' ∧ OnlyThePushedDDiffers s t t' (stackAddr (s.sp - 2#8)) := by
  refine ⟨_, _, step_of_nmi hpc hn, step_of_nmi (s := eraseD s) hpc hn, ?_⟩
  exact entry_onlyThePushedDDiffers (s := s) (u := s.beginCall.withNmiPending false) rfl rfl rfl rfl pc nmiVector _ h

/-- The entry of an IRQ, with D as it is and with D clear. -/
theorem irq_onlyThePushedDDiffers {s : State} {pc : Addr} (hpc : s.pc = some pc) (hn : s.nmiPending = false)
    (hq : s.irqAccepted = true)
    (h : vectorAfter s pc (pushedByInterrupt s.p &&& 0xF7#8) irqBrkVector = vectorAfter s pc (pushedByInterrupt s.p) irqBrkVector) :
    ∃ t t', step s = .next t ∧ step (eraseD s) = .next t' ∧ OnlyThePushedDDiffers s t t' (stackAddr (s.sp - 2#8)) := by
  refine ⟨_, _, step_of_irq hpc hn hq, step_of_irq (s := eraseD s) hpc hn ?_, ?_⟩
  · rw [eraseD_eq, irqAccepted_eraseFlag (by decide), hq]
  · exact entry_onlyThePushedDDiffers (s := s) (u := s.beginCall) rfl rfl rfl rfl pc irqBrkVector _ h

/-- PHP, with D as it is and with D clear. -/
theorem php_onlyThePushedDDiffers (s : State) : ∃ t t', exec .php s = .next t ∧ exec .php (eraseD s) = .next t' ∧
    OnlyThePushedDDiffers s t t' (stackAddr s.sp) := by
  refine ⟨_, _, rfl, rfl, ?_⟩
  rw [show (eraseD s).p = s.p &&& 0xF7#8 from rfl, pushedByInstruction_and_f7]
  exact push_onlyThePushedDDiffers s _

end Sys2Proof.Machine
end

section
namespace Sys2Proof.Proofs

open Sys2Proof.Machine Sys2Proof.Claims

/-- Settles O58: no flag test is one of D, and the status byte is the last of the bytes pushed. -/
theorem decimalModeAffectsNoResult : Obligations.DecimalModeAffectsNoResult := by
  refine ⟨fun i s => ⟨?_, fun hphp hbrk => ?_⟩, php_onlyThePushedDDiffers, ?_,
    fun s ret vector status status' h => vectorAfter_of_apart ret vector status status' h⟩
  · rw [eraseD_eq]
    exact cycleCount_eraseFlag (by decide) i s
  · rw [eraseD_eq]
    exact exec_ignoresFlag (by decide) i (fun h => absurd h (by simp [hphp, hbrk])) s
  · intro s pc hpc slot alike
    refine ⟨fun h => brk_onlyThePushedDDiffers hpc h, fun he h => ?_⟩
    cases hn : s.nmiPending with
    | true =>
      rw [hn] at h
      exact nmi_onlyThePushedDDiffers hpc hn h
    | false =>
      rw [hn] at h
      exact irq_onlyThePushedDDiffers hpc hn (irqAccepted_of_atEntry he hn) h

end Sys2Proof.Proofs
end

section
/-! A step as work on the bus (20_memory.md R61, R62; 00_scope.md R8): from the value of PC, a value that no bus decides but by the answers
it gives, and a state; the result of the step is read off both. -/

namespace Sys2Proof.Machine

/-- The cycle count of an instruction, from the counts given, whether its operand crossed a page, and the status byte it ran with. -/
def countWith (timing : List TimingRow) (i : Instr) (crossed : Bool) (status : Byte) : Nat :=
  baseCycles { Params.reference with timing := timing } i.opcode +
    (pagePenalty { Params.reference with timing := timing } i.opcode && crossed).toNat +
    if branchCondition i.mnemonic status then 1 + crossed.toNat else 0

theorem cycleCount_eq_countWith (i : Instr) (s : State) :
    cycleCount i s = countWith s.params.timing i (operandCrosses i.operand s) s.p := rfl

/-- How a step comes out: with a cycle count, which the counts given decide, or at an absent opcode byte. -/
abbrev StepOutcome := Except Byte (List TimingRow → Nat)

/-- The work after the fetch: an instruction is run, and an absent opcode byte is not. -/
def runFetched (r : Except Byte Instr) (s : State) : StepOutcome × State :=
  match r with
  | .error b => (.error b, s)
  | .ok i => (.ok fun timing => countWith timing i (operandCrosses i.operand s) s.p, stateAfter i s)

/-- The work of one kind of step, with PC at `pc`: an NMI is entered, or else an IRQ, or else an instruction is fetched and run. -/
def workOfKind (nmi irq : Bool) (pc : Addr) (s : State) : StepOutcome × State :=
  if nmi then (.ok fun _ => interruptCycles, s.enterNmi pc)
  else if irq then (.ok fun _ => interruptCycles, s.enterIrq pc)
  else
    match s.fetchInstr pc with
    | .error o => runFetched (.error o.1) o.2
    | .ok r => runFetched (.ok r.1) r.2

/-- The work of a step whose call has begun, with PC at `pc`. -/
def stepWork (pc : Addr) (s : State) : StepOutcome × State := workOfKind s.nmiPending s.irqAccepted pc s

/-- The result of a step from its work and the counts. -/
def resultOf (timing : List TimingRow) (w : StepOutcome × State) : Result :=
  match w.1 with
  | .ok n => .next (w.2.withCycles (some (n timing)))
  | .error b => .fault (.unsupportedOpcode b w.2)

/-- An instruction completes where PC has a value. -/
theorem exec_eq_stateAfter {i : Instr} {s : State} (h : s.pc ≠ none) : exec i s = .next (stateAfter i s) := by
  obtain ⟨pc, hpc⟩ := Option.ne_none_iff_exists'.mp h
  obtain ⟨_, _, -, -, ⟨k, -, he⟩ | ⟨k, -, he⟩⟩ := exec_effect i
  · rw [stateAfter, he]
  · rw [stateAfter, he, withPcValue, hpc]

/-- A fetched instruction is run with PC past it. -/
theorem fetchInstr_ok_pc {s v : State} {pc : Addr} {i : Instr} (h : s.fetchInstr pc = .ok (i, v)) : v.pc ≠ none := by
  obtain ⟨f, hf⟩ := fetchInstr_ok h
  rw [show v = ((s.fetchByte pc).2.fetchOperands (addrPlus pc 1) f).2 from congrArg Prod.snd hf]
  cases f <;> simp [State.fetchOperands]

/-- A step is its work on the state in which its call begins. -/
theorem step_eq_resultOf {s : State} {pc : Addr} (hpc : s.pc = some pc) :
    step s = resultOf s.params.timing (stepWork pc s.beginCall) := by
  have hn : s.beginCall.nmiPending = s.nmiPending := rfl
  have hq : s.beginCall.irqAccepted = s.irqAccepted := rfl
  unfold step stepWork workOfKind
  rw [hpc, hn, hq]
  dsimp only
  split
  · rfl
  · split
    · rfl
    · cases hf : s.beginCall.fetchInstr pc with
      | error o => rfl
      | ok r =>
        obtain ⟨-, hparams, -⟩ := fetchInstr_ok_frame hf
        dsimp only
        rw [exec_eq_stateAfter (fetchInstr_ok_pc hf), cycleCount_eq_countWith, hparams]
        rfl

theorem runFetched_throughBus (r : Except Byte Instr) : ThroughBus (runFetched r) := by
  cases r with
  | error b => exact .pure (Except.error b)
  | ok i =>
    exact ThroughBus.p.bind (fun status => (exec_throughBus i).bind
      (fun crossed => .pure (Except.ok fun timing => countWith timing i crossed status)))

theorem workOfKind_throughBus (nmi irq : Bool) (pc : Addr) : ThroughBus (workOfKind nmi irq pc) := by
  cases nmi with
  | true => exact (ThroughBus.enterNmi pc).keep _
  | false =>
    cases irq with
    | true => exact (ThroughBus.enterIrq pc).keep _
    | false =>
      refine ((ThroughBus.fetchInstr pc).bind runFetched_throughBus).congr (fun s => ?_)
      simp only [workOfKind, Bool.false_eq_true, if_false]
      cases s.fetchInstr pc <;> rfl

/-- The work of a step meets the bus only in the accesses it records. -/
theorem stepWork_throughBus (pc : Addr) : ThroughBus (stepWork pc) :=
  (ThroughBus.get State.nmiPending (fun _ _ _ => rfl)).bind
    (fun nmi => (ThroughBus.get State.irqAccepted (fun _ _ _ => rfl)).bind (fun irq => workOfKind_throughBus nmi irq pc))

/-- A completed step, over its own bus and over every other one that answers its reads alike. -/
theorem step_next_throughBus {s t : State} (h : step s = .next t) :
    s.params.bus.run t.accesses s.busState = some t.busState ∧
    ∀ (p : Params) (c c' : Memory × Nat), p.bus.run t.accesses c = some c' →
      ∃ k, step (s.onBus p c) = .next ((t.onBus p c').withCycles k) ∧ (p.timing = s.params.timing → k = t.cycles) := by
  obtain ⟨pc, hpc, -⟩ := step_cases h
  obtain ⟨l, hacc, -, hrun, hother⟩ := (stepWork_throughBus pc).own s.beginCall
  rw [step_eq_resultOf hpc] at h
  generalize stepWork pc s.beginCall = w at h hacc hrun hother
  obtain ⟨_ | n, u⟩ := w
  · cases h
  · cases h
    obtain rfl : u.accesses = l := hacc
    refine ⟨hrun, fun p c c' hp => ⟨some (n p.timing), ?_, fun ht => by rw [ht]; rfl⟩⟩
    rw [step_eq_resultOf (s := s.onBus p c) hpc]
    exact congrArg (resultOf p.timing) (hother p c c' hp)

/-- A step over a free pair of functions: the accesses this bus answers, made over every bus of the model on which they run. -/
theorem step_anyBus {s : State} (h : s.pc ≠ none) {σ : Type} (B : Bus σ) (b : σ) :
    ∃ (l : List Access) (b' : σ) (t : State), B.run l b = some b' ∧ t.accesses = l ∧
      ∀ (p : Params) (c c' : Memory × Nat), p.bus.run l c = some c' →
        (∃ k, step (s.onBus p c) = .next ((t.onBus p c').withCycles k)) ∨
        ∃ op, step (s.onBus p c) = .fault (.unsupportedOpcode op (t.onBus p c')) := by
  obtain ⟨pc, hpc⟩ := Option.ne_none_iff_exists'.mp h
  obtain ⟨l, b', v, u, hrun, hacc, hwork⟩ := stepWork_throughBus pc s.beginCall B b
  refine ⟨l, b', u, hrun, hacc, fun p c c' hp => ?_⟩
  have hstep : step (s.onBus p c) = resultOf p.timing (v, u.onBus p c') :=
    (step_eq_resultOf (s := s.onBus p c) hpc).trans (congrArg (resultOf p.timing) (hwork p c c' hp))
  rw [hstep]
  cases v with
  | ok n => exact .inl ⟨_, rfl⟩
  | error op => exact .inr ⟨op, rfl⟩

end Sys2Proof.Machine
end

section
namespace Sys2Proof.Proofs

open Sys2Proof.Machine

/-- Settles O59: the work of a step is one composition of pieces that meet the bus in their accesses only, and a script runs. -/
theorem aStepDependsOnlyOnTheBytesItReads : Obligations.AStepDependsOnlyOnTheBytesItReads := by
  intro s
  refine ⟨fun t h => step_next_throughBus h, fun σ B b h => ?_⟩
  obtain ⟨l, b', t, hrun, hacc, hstep⟩ := step_anyBus h B b
  exact ⟨l, b', t, hrun, hacc, hstep, script_run l s.params.timing⟩

end Sys2Proof.Proofs
end

section
/-! Memories in canonical form that read alike (20_memory.md R50, R52; log 1). -/

namespace Sys2Proof.Machine

/-- The first cell of a canonical memory reads as no unlisted address does, so no memory that reads alike there starts above it. -/
theorem Memory.not_lt_of_head {lo lo' k : Nat} {v : Byte} {m n : Memory} (hm : Memory.wfFrom lo ((k, v) :: m) = true)
    (hn : n.wfFrom lo' = true) (h : Memory.read ((k, v) :: m) k = n.read k) : ¬ k < lo' := by
  intro hlt
  obtain ⟨-, -, hv, -⟩ := Memory.wfFrom_cons.mp hm
  rw [Memory.read_of_lt hn hlt, Memory.read, if_pos rfl] at h
  exact hv h

/-- Tails of canonical memories with the same first cell read alike where the memories do. -/
theorem Memory.tails_read_alike {k a : Nat} {v w : Byte} {m n : Memory} (hm : m.wfFrom (k + 1) = true) (hn : n.wfFrom (k + 1) = true)
    (h : Memory.read ((k, v) :: m) a = Memory.read ((k, w) :: n) a) : m.read a = n.read a := by
  by_cases ha : k = a
  · rw [Memory.read_of_lt hm (by omega), Memory.read_of_lt hn (by omega)]
  · simpa only [Memory.read, if_neg ha] using h

/-- A canonical memory starts at its first cell. -/
theorem Memory.wfFrom_head {lo k : Nat} {v : Byte} {m : Memory} (h : Memory.wfFrom lo ((k, v) :: m) = true) :
    Memory.wfFrom k ((k, v) :: m) = true := by
  rw [Memory.wfFrom_cons] at h ⊢
  exact ⟨Nat.le_refl k, h.2⟩

/-- By induction on one memory: the other's first cell is neither above nor below its own, and holds the same byte. -/
theorem Memory.eq_of_read_eq {m : Memory} : ∀ {lo : Nat} {n : Memory}, m.wfFrom lo = true → n.wfFrom lo = true →
    (∀ a < Config.addressSpace, m.read a = n.read a) → m = n := by
  induction m with
  | nil =>
    intro lo n _ hn h
    cases n with
    | nil => rfl
    | cons d n =>
      obtain ⟨-, hj, -, -⟩ := Memory.wfFrom_cons.mp hn
      exact absurd (Nat.lt_succ_self d.1) (Memory.not_lt_of_head (n := []) hn rfl (h _ hj).symm)
  | cons c m ih =>
    intro lo n hm hn h
    obtain ⟨k, v⟩ := c
    obtain ⟨-, hk, -, hmt⟩ := Memory.wfFrom_cons.mp hm
    cases n with
    | nil => exact absurd (Nat.lt_succ_self k) (Memory.not_lt_of_head (n := []) hm rfl (h _ hk))
    | cons d n =>
      obtain ⟨j, w⟩ := d
      obtain ⟨-, hj, -, hnt⟩ := Memory.wfFrom_cons.mp hn
      have hkj : ¬ k < j := Memory.not_lt_of_head hm (Memory.wfFrom_head hn) (h _ hk)
      have hjk : ¬ j < k := Memory.not_lt_of_head hn (Memory.wfFrom_head hm) (h _ hj).symm
      obtain rfl : k = j := by omega
      obtain rfl : v = w := by simpa [Memory.read] using h k hk
      rw [ih hmt hnt (fun a ha => Memory.tails_read_alike hmt hnt (h a ha))]

end Sys2Proof.Machine
end

section
namespace Sys2Proof.Proofs

open Sys2Proof.Machine

/-- Settles O20, by induction on the memory: the first cells are the same, since each is read in the other. -/
theorem canonicalMemoriesThatReadAlikeAreEqual : Obligations.CanonicalMemoriesThatReadAlikeAreEqual := by
  intro m n hm hn h
  refine Memory.eq_of_read_eq hm hn (fun a ha => ?_)
  have e : (BitVec.ofNat 16 a).toNat = a := Nat.mod_eq_of_lt ha
  rw [← e]
  exact h _

end Sys2Proof.Proofs
end

section
/-! The stack as a list (20_memory.md R56 to R59): what pushes leave alone, and what pulls find. -/

namespace Sys2Proof.Machine

open Sys2Proof.Claims

/-! A run of pushes, and a run of pulls. -/

theorem pushAll_params (vs : List Byte) : ∀ s : State, (pushAll vs s).params = s.params := by
  induction vs with
  | nil => intro s; rfl
  | cons v vs ih => intro s; exact (ih _).trans (push_params s v)

theorem pullAll_params_mem (n : Nat) : ∀ s : State, (pullAll n s).2.params = s.params ∧ (pullAll n s).2.mem = s.mem := by
  induction n with
  | zero => intro s; exact ⟨rfl, rfl⟩
  | succ n ih =>
    intro s
    obtain ⟨hp, hm⟩ := ih s.pull.2
    exact ⟨hp.trans (pull_params s), hm.trans (pull_mem s)⟩

/-- The last pull of a run comes after the others. -/
theorem pullAll_succ (n : Nat) : ∀ s : State,
    pullAll (n + 1) s = ((pullAll n s).1 ++ [(pullAll n s).2.pull.1], (pullAll n s).2.pull.2) := by
  induction n with
  | zero => intro s; rfl
  | succ n ih =>
    intro s
    rw [pullAll, ih]
    rfl

/-! The stack page as plain RAM. -/

theorem stackPlain_of_params {s t : State} (h : StackPlain s) (hp : t.params = s.params) : StackPlain t := by
  unfold StackPlain
  rw [hp]
  exact h

/-- A byte of a plain stack is a byte of memory. -/
theorem peek_stack_congr {s t : State} (h : StackPlain s) (hp : t.params = s.params) (hm : t.mem = s.mem) (sp : Byte) :
    t.peek (stackAddr sp) = s.peek (stackAddr sp) :=
  peek_of_same hp hm (isDevice_of_isRam (h sp).1)

theorem peek_push_same {s : State} (w : s.mem.wf = true) (h : StackPlain s) (v : Byte) :
    (s.push v).peek (stackAddr s.sp) = v := peek_busWrite_same w (h s.sp).1 v

/-- A push leaves every other slot of a plain stack alone. -/
theorem peek_push_of_ne {s : State} (h : StackPlain s) {sp : Byte} (hne : sp ≠ s.sp) (v : Byte) :
    (s.push v).peek (stackAddr sp) = s.peek (stackAddr sp) := by
  refine peek_busWrite_of_ne s (isDevice_of_isRam (h sp).1) ?_ v
  rw [(h sp).2, (h s.sp).2]
  exact fun e => hne (stackAddr_inj e)

/-- Pushes leave alone a slot that they do not come down to. -/
theorem peek_pushAll {sp : Byte} (vs : List Byte) : ∀ {s : State}, StackPlain s → vs.length ≤ (s.sp - sp).toNat →
    (pushAll vs s).peek (stackAddr sp) = s.peek (stackAddr sp) := by
  induction vs with
  | nil => intro s _ _; rfl
  | cons v vs ih =>
    intro s h hlen
    rw [List.length_cons] at hlen
    have hne : sp ≠ s.sp := by rintro rfl; simp at hlen
    have hrest : vs.length ≤ ((s.push v).sp - sp).toNat := by rw [push_sp]; bv_omega
    exact (ih (stackPlain_of_params h (push_params s v)) hrest).trans (peek_push_of_ne h hne v)

/-- Any run of at most 256 pushes is undone by as many pulls: the pulls of the later bytes come first, and find the first one. -/
theorem pullAll_pushAll (vs : List Byte) : ∀ {s : State}, s.mem.wf = true → StackPlain s → vs.length ≤ 256 →
    (pullAll vs.length (pushAll vs s)).1 = vs.reverse ∧ (pullAll vs.length (pushAll vs s)).2.sp = s.sp := by
  induction vs with
  | nil => intro s _ _ _; exact ⟨rfl, rfl⟩
  | cons v vs ih =>
    intro s w h hlen
    rw [List.length_cons] at hlen
    have hplain : StackPlain (s.push v) := stackPlain_of_params h (push_params s v)
    obtain ⟨hbytes, hsp⟩ := ih (push_wf w v) hplain (by omega)
    rw [push_sp] at hsp
    obtain ⟨hp, hm⟩ := pullAll_params_mem vs.length (pushAll vs (s.push v))
    have hroom : vs.length ≤ ((s.push v).sp - s.sp).toNat := by rw [push_sp]; bv_omega
    have hfirst : (pullAll vs.length (pushAll vs (s.push v))).2.peek (stackAddr s.sp) = v :=
      calc _ = (pushAll vs (s.push v)).peek (stackAddr s.sp) :=
          peek_stack_congr (stackPlain_of_params hplain (pushAll_params vs _)) hp hm s.sp
        _ = (s.push v).peek (stackAddr s.sp) := peek_pushAll vs hplain hroom
        _ = v := peek_push_same w h v
    rw [List.length_cons, pullAll_succ, pushAll, hbytes, pull_fst, pull_sp, hsp, BitVec.sub_add_cancel, hfirst, List.reverse_cons]
    exact ⟨rfl, rfl⟩

end Sys2Proof.Machine
end

section
namespace Sys2Proof.Proofs

open Sys2Proof.Machine

/-- Settles O23, by induction on the bytes pushed. -/
theorem theStackIsLastInFirstOut : Obligations.TheStackIsLastInFirstOut :=
  fun vs _ => pullAll_pushAll vs

end Sys2Proof.Proofs
end

section
/-! Which instructions can change memory, and which PC (20_memory.md R60, R61; 44_control.md R213). In each lemma the first lines name
the effects that do; the field lemmas say that the others do not. -/

namespace Sys2Proof.Machine

/-- The mnemonics that write memory in every mode: the stores, the pushes, JSR, BRK, INC and DEC (20_memory.md R61). -/
def memoryWriters : List Mnemonic := [.sta, .stx, .sty, .pha, .php, .jsr, .brk, .inc, .dec]

/-- The mnemonics of the control transfers (44_control.md R213). -/
def controlTransfers : List Mnemonic := [.jmp, .jsr, .rts, .bcc, .bcs, .beq, .bne, .bmi, .bpl, .bvc, .bvs, .brk, .rti]

theorem Effect.mem_unchanged {m : Mnemonic} {o : Mode} {k : State → State} (h : Effect m o k)
    (hm : m ∉ memoryWriters)
    (ho : m ∈ [Mnemonic.asl, .lsr, .rol, .ror] → o = .accumulator) (s : State) : (k s).mem = s.mem := by
  cases h
  case sta | stx | sty | pha | php | inc | dec => exact absurd (by decide) hm
  case shiftM _ hs hne => exact absurd (ho hs) hne
  all_goals simp [result_eq]

theorem PcEffect.mem_unchanged {m : Mnemonic} {k : State → Addr → State} (h : PcEffect m k)
    (hm : m ∉ memoryWriters) (s : State) (pc : Addr) : (k s pc).mem = s.mem := by
  cases h
  case brk | jsr => exact absurd (by decide) hm
  case branch => simp

theorem Effect.pc_unchanged {m : Mnemonic} {o : Mode} {k : State → State} (h : Effect m o k)
    (hm : m ∉ controlTransfers) (s : State) : (k s).pc = s.pc := by
  cases h
  case jmp | rts | rti => exact absurd (by decide) hm
  all_goals simp [result_eq]

/-- Every instruction that reads PC transfers control. -/
theorem PcEffect.transfers {m : Mnemonic} {k : State → Addr → State} (h : PcEffect m k) :
    m ∈ controlTransfers := by
  cases h
  case brk | jsr => decide
  case branch hb => exact (by decide : [Mnemonic.bcc, .bcs, .beq, .bne, .bmi, .bpl, .bvc, .bvs] ⊆ controlTransfers) hb

/-- An instruction that is no writer of memory leaves the bytes the bus keeps. -/
theorem exec_mem_unchanged {i : Instr} {s t : State} (h : exec i s = .next t)
    (hm : i.mnemonic ∉ memoryWriters)
    (ho : i.mnemonic ∈ [Mnemonic.asl, .lsr, .rol, .ror] → i.mode = .accumulator) : t.mem = s.mem := by
  obtain ⟨k, hk, rfl⟩ | ⟨k, pc, hk, -, rfl⟩ := exec_next_effect h
  · exact hk.mem_unchanged hm ho s
  · exact hk.mem_unchanged hm s pc

/-- An instruction that is no control transfer leaves PC. -/
theorem exec_pc_unchanged {i : Instr} {s t : State} (h : exec i s = .next t)
    (hm : i.mnemonic ∉ controlTransfers) : t.pc = s.pc := by
  obtain ⟨k, hk, rfl⟩ | ⟨k, pc, hk, -, rfl⟩ := exec_next_effect h
  · exact hk.pc_unchanged hm s
  · exact absurd hk.transfers hm

end Sys2Proof.Machine
end

section
namespace Sys2Proof.Proofs

open Sys2Proof.Machine

/-- Settles O56, by the effects of the instructions that are no writers. -/
theorem memoryAndPcChangeOnlyByTheirWriters : Obligations.MemoryAndPcChangeOnlyByTheirWriters := by
  intro i s t h
  obtain ⟨hp, -⟩ := exec_keeps_bus h
  refine ⟨hp, fun hne => Decidable.byContradiction fun hn => ?_, fun hne => Decidable.byContradiction fun hn =>
    hne (exec_pc_unchanged h hn)⟩
  rw [not_or] at hn
  have hm : t.mem = s.mem := exec_mem_unchanged h hn.1 (fun hs => Decidable.byContradiction fun ho => hn.2 ⟨hs, ho⟩)
  rcases hne with hne | ⟨a, ha, hne⟩
  · exact hne hm
  · exact hne (peek_of_same hp hm ha)

end Sys2Proof.Proofs
end

section
/-! One access of the core (00_scope.md R12; 20_memory.md R52 to R62): what it does to the bytes the bus keeps, and what stands behind its
address. -/

namespace Sys2Proof.Machine

open Sys2Proof.Claims

/-- A bus write stores its byte and leaves every other byte alone. -/
theorem busWrite_byteStored (s : State) (a : Addr) (v : Byte) : ByteStored s (s.busWrite a v) a v :=
  ⟨fun w hr => peek_busWrite_same w hr v, fun hr => writeByte_not_ram hr s.mem v,
    fun _ hb hne => peek_busWrite_of_ne s hb (hne a (List.mem_singleton_self a)) v⟩

/-- A bus read leaves every byte of memory alone. -/
theorem busRead_othersUnchanged (s : State) (a : Addr) (as : List Addr) : OthersUnchanged s (s.busRead a).2 as :=
  fun _ hb _ => peekAfter_of_not_device hb a

/-- `Pull` in one record: SP goes up and the byte at it is read (20_memory.md R58). -/
theorem pull_eq (s : State) : s.pull = (s.peek (stackAddr (s.sp + 1#8)), { s with
    sp := s.sp + 1#8
    deviceState := (s.busRead (stackAddr (s.sp + 1#8))).2.deviceState
    accesses := s.accesses ++ [.read (stackAddr (s.sp + 1#8)) (s.peek (stackAddr (s.sp + 1#8)))] }) := rfl

/-! The region that holds an address. -/

/-- The first region that holds an address is the one found. -/
theorem find_region {p : Params} {before after : List Region} {r : Region} {a : Addr} (hp : p.busMap = before ++ r :: after)
    (hb : ∀ q ∈ before, q.holds a = false) (hr : r.holds a = true) : p.busMap.find? (·.holds a) = some r := by
  have hnone : before.find? (·.holds a) = none := List.find?_eq_none.mpr (fun q hq => by simp [hb q hq])
  rw [hp, List.find?_append, hnone, Option.none_or]
  exact List.find?_cons_of_pos hr

theorem backing_of_region {p : Params} {r : Region} {a : Addr} (h : p.busMap.find? (·.holds a) = some r) :
    p.backing a = some r.kind := by rw [Params.backing, h]; rfl

/-- Only a mirror names another cell. -/
theorem cell_of_region {p : Params} {r : Region} {a : Addr} (h : p.busMap.find? (·.holds a) = some r) : p.cell a =
    match r.kind with
    | .mirror base size => base + BitVec.ofNat 16 ((a.toNat - r.first.toNat) % size)
    | _ => a := by
  obtain ⟨first, last, kind⟩ := r
  rw [Params.cell, h]
  cases kind <;> rfl

/-! Two addresses of one cell are one place: what a read answers and what a write does is said by the cell. -/

theorem isDevice_of_cell {p : Params} {a c : Addr} (h : p.cell a = p.cell c) : p.isDevice a = p.isDevice c := by
  rw [Params.isDevice, Params.isDevice, h]

theorem isRam_of_cell {p : Params} {a c : Addr} (h : p.cell a = p.cell c) : p.isRam a = p.isRam c := by
  rw [Params.isRam, Params.isRam, h, isDevice_of_cell h]

theorem peek_of_cell {s : State} {a c : Addr} (h : s.params.cell a = s.params.cell c) : s.peek a = s.peek c := by
  rw [peek_eq, peek_eq, Params.readByte, Params.readByte, isDevice_of_cell h, h]

theorem busWrite_of_cell {s : State} {a c : Addr} (h : s.params.cell a = s.params.cell c) (v : Byte) :
    (s.busWrite a v).busState = (s.busWrite c v).busState := by
  simp only [busWrite_bus, Params.bus, Params.writeByte, Params.devicesAfterWrite, isDevice_of_cell h, isRam_of_cell h, h]

/-! Each kind of region. -/

theorem peek_of_not_device {s : State} {a : Addr} (h : s.params.isDevice a = false) :
    s.peek a = s.mem.read (s.params.cell a).toNat := by
  rw [peek_eq, Params.readByte, h]
  rfl

/-- ROM is not written, and reads as its own cell. -/
theorem rom_region {s : State} {r : Region} {a : Addr} (h : s.params.busMap.find? (·.holds a) = some r) (hk : r.kind = .rom) :
    s.params.isRam a = false ∧ s.peek a = s.mem.read a.toNat := by
  have hc : s.params.cell a = a := by rw [cell_of_region h, hk]
  have hb : s.params.backing (s.params.cell a) = some .rom := by rw [hc, backing_of_region h, hk]
  have hd : s.params.isDevice a = false := by rw [Params.isDevice, hb]; rfl
  refine ⟨by rw [Params.isRam, hb]; rfl, ?_⟩
  rw [peek_of_not_device hd, hc]

/-- A device is its own cell, and no RAM. -/
theorem device_region {p : Params} {r : Region} {a : Addr} (h : p.busMap.find? (·.holds a) = some r) (hk : r.kind = .device) :
    p.isRam a = false ∧ p.isDevice a = true ∧ p.cell a = a := by
  have hc : p.cell a = a := by rw [cell_of_region h, hk]
  have hd : p.isDevice a = true := by rw [Params.isDevice, hc, backing_of_region h, hk]; rfl
  exact ⟨by rw [Params.isRam, hd, Bool.not_true, Bool.and_false], hd, hc⟩

/-- A mirror's cell lies in what it mirrors. -/
theorem mirror_region {p : Params} {r : Region} {a base : Addr} {size : Nat} (h : p.busMap.find? (·.holds a) = some r)
    (hk : r.kind = .mirror base size) : p.cell a = BitVec.ofNat 16 (base.toNat + (a.toNat - r.first.toNat) % size) := by
  rw [cell_of_region h, hk, BitVec.ofNat_add, BitVec.ofNat_toNat, BitVec.setWidth_eq]

/-! The rows of a device. -/

/-- The first row that fits says what a read of a device answers and leaves. -/
theorem busRead_device_row {s : State} {a : Addr} {before after : List DeviceRow} {r : DeviceRow}
    (hd : s.params.isDevice a = true) (hs : r.state = s.deviceState) (ha : r.addr = s.params.cell a)
    (hr : s.params.deviceReads = before ++ r :: after) (hb : ∀ q ∈ before, q.state ≠ r.state ∨ q.addr ≠ r.addr) :
    s.peek a = r.byte ∧ (s.busRead a).2.deviceState = r.next := by
  have h := deviceRead_row hr hb
  rw [hs, ha] at h
  rw [peek_eq, busRead_deviceState, Params.readByte, Params.devicesAfterRead, hd, if_pos rfl, if_pos rfl, h]
  exact ⟨rfl, rfl⟩

/-- The first row that fits says what a write to a device leaves. -/
theorem busWrite_device_row {s : State} {a : Addr} {before after : List DeviceRow} {r : DeviceRow}
    (hd : s.params.isDevice a = true) (hs : r.state = s.deviceState) (ha : r.addr = s.params.cell a)
    (hr : s.params.deviceWrites = before ++ r :: after)
    (hb : ∀ q ∈ before, q.state ≠ r.state ∨ q.addr ≠ r.addr ∨ q.byte ≠ r.byte) :
    (s.busWrite a r.byte).deviceState = r.next := by
  have h := deviceWrite_row hr hb
  rw [hs, ha] at h
  rw [busWrite_deviceState, Params.devicesAfterWrite, hd, if_pos rfl, h]

end Sys2Proof.Machine
end

section
namespace Sys2Proof.Proofs

open Sys2Proof.Machine Sys2Proof.Claims

/-- Settles O22: a push is a bus write and a step of SP, a pull a step of SP and a bus read. -/
theorem pushAndPullMoveOneByte : Obligations.PushAndPullMoveOneByte :=
  fun s v => ⟨stackAddr_toNat, busWrite_byteStored s (stackAddr s.sp) v, rfl, push_accesses s v, pull_eq s⟩

/-- Settles O24: both are a pair of reads, at addresses that wrap as the words of their width do. -/
theorem wordsAreReadLittleEndianWithTheirWraps : Obligations.WordsAreReadLittleEndianWithTheirWraps := by
  intro s a z
  dsimp only
  have hlo : BitVec.ofNat 16 a.toNat = a := by simp
  have hhi : BitVec.ofNat 16 ((a.toNat + 1) % 65536) = a + 1#16 := by bv_omega
  have zlo : BitVec.ofNat 16 z.toNat = zext16 z := by apply BitVec.eq_of_toNat_eq; rw [zext16_toNat]; bv_omega
  have zhi : BitVec.ofNat 16 ((z.toNat + 1) % 256) = zext16 (z + 1#8) := by
    apply BitVec.eq_of_toNat_eq; rw [zext16_toNat]; bv_omega
  rw [hlo, hhi, zlo, zhi, busRead16_eq, zpRead16_eq]
  exact ⟨⟨w16_toNat _ _, rfl⟩, w16_toNat _ _, rfl⟩

/-- Settles O60, by the kinds of region and the rows of the devices. -/
theorem theBusAnswersAsItsParameterSays : Obligations.TheBusAnswersAsItsParameterSays := by
  intro s a v
  refine ⟨busRead_bus s a, busWrite_bus s a v, rfl, busRead_othersUnchanged s a [], busWrite_byteStored s a v, rfl, ?_, ?_, ?_⟩
  · intro hmap
    have hd : s.params.isDevice a = false := isDevice_flat hmap a
    refine ⟨isRam_flat hmap a, hd, cell_flat hmap a, ?_⟩
    rw [peek_of_not_device hd, cell_flat hmap]
  · intro before after r hmap hbefore hfirst hlast
    have h := find_region hmap hbefore (a := a) (by simp [Region.holds, hfirst, hlast])
    refine ⟨rom_region h, device_region h, fun base size hk => ?_⟩
    have hc := mirror_region h hk
    refine ⟨hc, fun hcc => ?_⟩
    have hcell := hc.trans hcc.symm
    exact ⟨peek_of_cell hcell, isRam_of_cell hcell, isDevice_of_cell hcell, busWrite_of_cell hcell v⟩
  · intro before after r hd hs ha
    refine ⟨busRead_device_row hd hs ha, fun hr hb hv => ?_⟩
    subst hv
    exact busWrite_device_row hd hs ha hr hb

end Sys2Proof.Proofs
end

section
/-! The opcode table and the instructions (30_encoding.md R81, R83, R107): what the decoder accepts and what a row of the table shares
with the instructions it makes, each said once. -/

namespace Sys2Proof

open Sys2Proof.Claims

/-- The operand bytes a form takes, and the instruction it makes of them (30_encoding.md R83; the low byte first, 20_memory.md R53). -/
inductive OpForm.Makes : OpForm → List Byte → Instr → Prop
  | f1 i : Makes (.f1 i) [] i
  | f2 mk b : Makes (.f2 mk) [b] (mk b)
  | f3 mk a : Makes (.f3 mk) [loByte a, hiByte a] (mk a)

/-- Any two bytes are those of an address. -/
theorem makes_w16 (mk : Addr → Instr) (b1 b2 : Byte) : (OpForm.f3 mk).Makes [b1, b2] (mk (w16 b1 b2)) := by
  simpa using OpForm.Makes.f3 mk (w16 b1 b2)

/-- All that the decoder accepts: an opcode byte with a row, and the operand bytes the row's form takes. -/
theorem decode_eq_ok_iff {bs rest : List Byte} {i : Instr} : decode bs = .ok (i, rest) ↔
    ∃ op r operand, opRow op = some r ∧ r.form.Makes operand i ∧ bs = op :: operand ++ rest := by
  constructor
  · intro h
    cases bs with
    | nil => cases h
    | cons op bs =>
      simp only [decode] at h
      split at h
      · cases h
      · rename_i r hr
        refine ⟨op, r, ?_⟩
        split at h <;> cases h <;> rename_i hf
        · exact ⟨[], hr, hf ▸ .f1 _, rfl⟩
        · exact ⟨[_], hr, hf ▸ .f2 _ _, rfl⟩
        · exact ⟨[_, _], hr, hf ▸ makes_w16 _ _ _, rfl⟩
  · rintro ⟨op, ⟨_, _, form⟩, operand, hr, hm, rfl⟩
    cases hm <;> simp [decode, hr]

/-- An opcode byte with two bytes after it decodes to what the row's form makes of as many of them as it takes. -/
theorem decode3_eq_some {op b1 b2 : Byte} {i : Instr} (h : decode3 op b1 b2 = some i) :
    ∃ r operand, opRow op = some r ∧ r.form.Makes operand i ∧ operand = [b1, b2].take operand.length := by
  obtain ⟨r, hr, rfl⟩ := Option.map_eq_some_iff.mp h
  refine ⟨r, ?_⟩
  cases r.form with
  | f1 i => exact ⟨[], hr, .f1 i, rfl⟩
  | f2 mk => exact ⟨[b1], hr, .f2 mk b1, rfl⟩
  | f3 mk => exact ⟨[b1, b2], hr, makes_w16 mk b1 b2, rfl⟩

/-- An opcode byte decodes to nothing exactly where it has no row, whatever follows it. -/
theorem decode3_eq_none_iff {op b1 b2 : Byte} : decode3 op b1 b2 = none ↔ opRow op = none := Option.map_eq_none_iff

/-- The table has a row for every instruction, whose form makes the instruction of its own operand bytes: constructor by constructor, the
row is found by evaluation and its form fixes the rule of `Makes`. -/
theorem opRow_opcode (i : Instr) : ∃ r, opRow i.opcode = some r ∧ r.form.Makes i.operand.bytes i := by
  cases i <;> dsimp only [Instr.opcode] <;> exact ⟨_, rfl, by constructor⟩

/-- What an instruction made by a row of operand bytes shares with the row and the bytes. -/
structure OpRow.Agrees (r : OpRow) (operand : List Byte) (i : Instr) : Prop where
  opcode : i.opcode = r.opcode
  bytes : i.operand.bytes = operand
  mnem : i.mnemonic = r.entry.mnem
  mode : i.mode = r.entry.mode
  len : r.entry.len = 1 + operand.length

/-- A row agrees with every instruction its form makes. -/
def OpRow.Sound (r : OpRow) : Prop := ∀ operand i, r.form.Makes operand i → r.Agrees operand i

/-- Every row of the table is sound: high nibble by high nibble, row by row, and the form of a row says what it makes. -/
theorem opRowsOf_sound (hi : Nat) : ∀ r ∈ opRowsOf hi, r.Sound := by
  unfold opRowsOf
  split <;>
    simp only [opRows0, opRows1, opRows2, opRows3, opRows4, opRows5, opRows6, opRows7, opRows8, opRows9, opRowsA, opRowsB, opRowsC,
      opRowsD, opRowsE, opRowsF, List.forall_mem_cons, List.not_mem_nil, false_implies, implies_true, and_true]
  all_goals
    and_intros
    all_goals
      intro operand i hm
      cases hm
      exact ⟨rfl, rfl, rfl, rfl, rfl⟩

/-- The row found for an opcode byte is of that byte, and agrees with every instruction its form makes. -/
theorem opRow_agrees {op : Byte} {r : OpRow} (h : opRow op = some r) {operand : List Byte} {i : Instr}
    (hm : r.form.Makes operand i) : r.Agrees operand i ∧ encode i = op :: operand := by
  have ha := opRowsOf_sound _ r (List.mem_of_find?_eq_some h) operand i hm
  have hop : r.opcode = op := by simpa using List.find?_some h
  exact ⟨ha, by rw [encode, ha.opcode, ha.bytes, hop]⟩

/-- An operand has as many bytes as its mode says (30_encoding.md R83). -/
theorem operand_bytes_length (o : Operand) : o.bytes.length = o.mode.operandBytes := by
  cases o with
  | memory f => cases f <;> rfl
  | _ => rfl

/-- Which modes have no operand byte, and which have two; none has more (30_encoding.md R83). -/
theorem operandBytes_cases (m : Mode) : (m.operandBytes = 0 ↔ m = .implicit ∨ m = .accumulator) ∧
    (m.operandBytes = 2 ↔ m = .absolute ∨ m = .absoluteX ∨ m = .absoluteY ∨ m = .indirect) ∧ m.operandBytes ≤ 2 := by
  cases m <;> decide

/-- The bytes without a row, counted through all 256 (30_encoding.md R109). -/
theorem opRow_eq_none_iff (op : Byte) : opRow op = none ↔ op.toNat ∈ absentBytes := by
  have h : ∀ op : Byte, (opRow op).isNone = decide (op.toNat ∈ absentBytes) := by decide +kernel
  rw [← Option.isNone_iff_eq_none, h, decide_eq_true_iff]

end Sys2Proof
end

section
/-! The addresses of the resolver as numbers (30_encoding.md R94 to R102). -/

namespace Sys2Proof.Machine

theorem ofNat_toNat_addr (a : Addr) : BitVec.ofNat 16 a.toNat = a := by simp

theorem ofNat_pageWrapNext (a : Addr) : BitVec.ofNat 16 (a.toNat / 256 * 256 + (a.toNat + 1) % 256) = pageWrapNext a := by
  rw [← pageWrapNext_toNat, ofNat_toNat_addr]

theorem ofNat_toNat_byte (z : Byte) : BitVec.ofNat 16 z.toNat = zext16 z := by
  rw [← zext16_toNat, ofNat_toNat_addr]

/-- The byte after one of page 0 stands in page 0 (20_memory.md R54 (b)). -/
theorem ofNat_toNat_succ_byte (z : Byte) : BitVec.ofNat 16 ((z.toNat + 1) % 256) = zext16 (z + 1#8) := by
  rw [← ofNat_toNat_byte, BitVec.toNat_add]; rfl

/-- An indexed address is the sum modulo 65 536, it crosses where the high byte of the sum is not the base's, and nothing is read. -/
theorem indexed_toNat (base : Addr) (ix : Byte) (s : State) :
    (indexed base ix s).ea.toNat = (base.toNat + ix.toNat) % 65536 ∧
    ((indexed base ix s).crossed = true ↔ base.toNat / 256 ≠ (base.toNat + ix.toNat) % 65536 / 256) ∧
    (indexed base ix s).st = s := by
  have hea : (base + zext16 ix).toNat = (base.toNat + ix.toNat) % 65536 := by rw [BitVec.toNat_add, zext16_toNat]
  exact ⟨hea, hea ▸ pageDiffers_iff base _, rfl⟩

end Sys2Proof.Machine
end

section
/-! The fetch of the instruction at PC (30_encoding.md R85 to R87, R90): its bytes are those the reads at its addresses give. -/

namespace Sys2Proof.Machine

open Sys2Proof.Claims

/-- The address the fetch has come to after `k` bytes (30_encoding.md R90). -/
def addrAfter (pc : Addr) : Nat → Addr
  | 0 => pc
  | k + 1 => addrPlus (addrAfter pc k) 1

/-- Going on byte by byte is adding to the address, modulo 65 536 (10_state.md R35). -/
theorem addrAfter_eq_ofNat (pc : Addr) (k : Nat) : addrAfter pc k = BitVec.ofNat 16 (pc.toNat + k) := by
  induction k with
  | zero => exact (ofNat_toNat_addr pc).symm
  | succ k ih => rw [addrAfter, ih, addrPlus, ← BitVec.ofNat_add, Nat.add_assoc]

/-- The bytes of an instruction stand at one address after another. -/
theorem bytesOf_eq (i : Instr) (pc : Addr) : bytesOf i pc = (List.range' 0 (encode i).length).map (addrAfter pc) := by
  simp only [bytesOf, ← addrAfter_eq_ofNat, List.range_eq_range']

/-- The state in which a step runs an instruction, by the shared operations: its bytes have been read, and PC is past them. -/
theorem fetched_eq (s : State) (pc : Addr) (i : Instr) : fetched s pc i =
    (readsAt (bytesOf i pc) s.beginCall).2.withPc (some (addrAfter pc (encode i).length)) := by
  rw [addrAfter_eq_ofNat]; rfl

/-- Where the bytes at `pc` decode to an instruction, the fetch reads these bytes and answers the instruction. -/
theorem fetchInstr_of_decodesAt {s : State} {pc : Addr} {i : Instr} (h : decodesAt s pc i) :
    s.beginCall.fetchInstr pc = .ok (i, fetched s pc i) := by
  obtain ⟨op, r, operand, hr, hm, hb⟩ := decode_eq_ok_iff.mp h
  obtain ⟨-, he⟩ := opRow_agrees hr hm
  rw [bytesOf_eq, he, List.append_nil] at hb
  obtain ⟨hop, hb⟩ := List.cons.inj hb
  have hrow : opRow (s.beginCall.fetchByte pc).1 = some r := hop ▸ hr
  simp only [State.fetchInstr, hrow, fetched_eq, bytesOf_eq, he]
  generalize r.form = form at hm
  cases hm with
  | f1 i => rfl
  | f2 mk b =>
    obtain ⟨hlo, -⟩ := List.cons.inj hb
    rw [← hlo]
    rfl
  | f3 mk a =>
    obtain ⟨hlo, hb⟩ := List.cons.inj hb
    obtain ⟨hhi, -⟩ := List.cons.inj hb
    rw [← w16_loByte_hiByte a, ← hlo, ← hhi]
    rfl

/-- No IRQ is entered where an instruction is fetched. -/
theorem irqAccepted_of_atFetch {s : State} {pc : Addr} (h : AtFetch s pc) : s.irqAccepted = false := by
  obtain ⟨-, -, hi⟩ := h
  rw [State.irqAccepted]
  cases hl : s.irqLine with
  | false => rfl
  | true => rw [hi hl]; rfl

/-- A step that fetches an instruction runs it and charges its cycles (30_encoding.md R87). -/
theorem step_of_fetch {s v : State} {pc : Addr} {i : Instr} (h : AtFetch s pc) (hf : s.beginCall.fetchInstr pc = .ok (i, v)) :
    step s = charge (cycleCount i v) (exec i v) := by
  have hq := irqAccepted_of_atFetch h
  obtain ⟨hpc, hn, -⟩ := h
  simp [step, hpc, hn, hq, hf]

end Sys2Proof.Machine
end

section
namespace Sys2Proof.Proofs

open Sys2Proof.Machine Sys2Proof.Claims

/-- Settles O1: the table has the instruction's row, and the decoder accepts what a row makes. -/
theorem decodeAfterEncodeReturnsTheInstruction : Obligations.DecodeAfterEncodeReturnsTheInstruction := by
  intro i rest _
  obtain ⟨r, hr, hm⟩ := opRow_opcode i
  exact decode_eq_ok_iff.mpr ⟨i.opcode, r, i.operand.bytes, hr, hm, rfl⟩

/-- Settles O2: the decoder accepts only what a row makes, and the row agrees with what it makes. -/
theorem encodeAfterDecodeReturnsTheBytes : Obligations.EncodeAfterDecodeReturnsTheBytes := by
  intro bs rest i h
  obtain ⟨op, r, operand, hr, hm, rfl⟩ := decode_eq_ok_iff.mp h
  obtain ⟨ha, he⟩ := opRow_agrees hr hm
  rw [he]
  exact ⟨rfl, by simp [wellFormedBytes, opTab, hr, ha.len, Nat.add_comm]⟩

/-- Settles O3, by the bytes without a row. -/
theorem exactlyTheListedBytesAreAbsent : Obligations.ExactlyTheListedBytesAreAbsent :=
  ⟨rfl, fun op _ _ => decode3_eq_none_iff.trans (opRow_eq_none_iff op)⟩

/-- Settles O4: the row of the opcode byte agrees with what it makes, and the mode counts the operand bytes. -/
theorem theOpcodeByteFixesModeAndLength : Obligations.TheOpcodeByteFixesModeAndLength := by
  intro op b1 b2 i h
  obtain ⟨r, operand, hr, hm, ht⟩ := decode3_eq_some h
  obtain ⟨ha, he⟩ := opRow_agrees hr hm
  have hn : operand.length = i.mode.operandBytes := by rw [← ha.bytes, operand_bytes_length, Instr.mode]
  refine ⟨⟨r.entry, by rw [opTab, hr]; rfl, ha.mnem, ha.mode, ?_, ?_⟩, ?_, operandBytes_cases i.mode⟩
  · rw [he, ha.len, List.length_cons, Nat.add_comm]
  · rw [ha.len, hn, ha.mode]
  · rw [he, ← hn, Nat.add_comm, List.take_succ_cons, ← ht]

/-- Settles O25, mode by mode: the addresses as numbers are those the resolver reads and answers. -/
theorem addressingModesComputeTheEffectiveAddress : Obligations.AddressingModesComputeTheEffectiveAddress := by
  intro s b a
  have hx : (b.toNat + s.x.toNat) % 256 = (b + s.x).toNat := (BitVec.toNat_add ..).symm
  have hy : (b.toNat + s.y.toNat) % 256 = (b + s.y).toNat := (BitVec.toNat_add ..).symm
  dsimp only
  simp only [hx, hy, ofNat_toNat_addr, ofNat_pageWrapNext, ofNat_toNat_byte, ofNat_toNat_succ_byte, ← w16_toNat]
  have unindexed (n : Nat) : false = true ↔ n / 256 ≠ n / 256 := by simp
  exact ⟨⟨zext16_toNat b, unindexed _, rfl⟩, ⟨zext16_toNat (b + s.x), unindexed _, rfl⟩, ⟨zext16_toNat (b + s.y), unindexed _, rfl⟩,
    ⟨rfl, unindexed _, rfl⟩, indexed_toNat a s.x s, indexed_toNat a s.y s, ⟨rfl, unindexed _, rfl⟩, ⟨rfl, unindexed _, rfl⟩,
    indexed_toNat (s.zpRead16 b).1 s.y (s.zpRead16 b).2, fun _ => rfl, fun _ => rfl⟩

/-- Settles O5, word by word. -/
theorem writtenOutWordsDecode : Obligations.WrittenOutWordsDecode :=
  ⟨rfl, rfl, rfl, rfl, rfl, rfl, rfl, rfl, rfl, rfl⟩

/-- Settles O6: the bytes that decode at PC are those the fetch reads, and the step runs and charges what it fetches. -/
theorem aStepRunsTheDecodedInstruction : Obligations.AStepRunsTheDecodedInstruction := by
  intro s pc i hat h
  rw [step_of_fetch hat (fetchInstr_of_decodesAt h)]
  cases exec i (fetched s pc i) <;> rfl

end Sys2Proof.Proofs
end

section
/-! What the statements ask of a mnemonic's rows, of the flags and of memory, said of what brings it about: the opcode table, `setZN` and a
write at a resolved address (30_encoding.md R103, R107; 00_scope.md R11; 20_memory.md R61). -/

namespace Sys2Proof.Machine

open Sys2Proof.Claims

/-- A mnemonic's rows are told by looking at every opcode byte (30_encoding.md R107). -/
theorem formsAre_of_bytes {m : Mnemonic} {rows : List (Byte × OpEntry)}
    (h : ∀ op : Byte, (opTab op).filter (fun e => e.mnem == m) = rows.lookup op) : FormsAre m rows := h

/-- `setZN(v)` on P is what the statements list as `zn v` (00_scope.md R11). -/
theorem flagsBecome_setZNBits {s t : State} {v : Byte} (h : t.p = setZNBits s.p v) : FlagsBecome s t (zn v) := by
  refine ⟨by rw [h, bit5_setZNBits], fun f => ?_⟩
  rw [State.flag, h, getFlag_setZNBits, State.flag]
  cases f <;> rfl

/-- A byte stored after work that kept the parameters and the bytes of the bus is stored as from before that work. -/
theorem byteStored_of_same {s u t : State} {a : Addr} {v : Byte} (hp : u.params = s.params) (hm : u.mem = s.mem)
    (h : ByteStored u t a v) : ByteStored s t a v := by
  obtain ⟨hram, hrom, hothers⟩ := h
  rw [hp, hm] at hram hrom
  refine ⟨hram, hrom, fun b hb hne => ?_⟩
  have hu : u.peek b = s.peek b := peek_of_same hp hm hb
  rw [← hu]
  exact hothers b (hp ▸ hb) (hp ▸ hne)

/-- A write at a resolved address in one record: the pointer reads and the one write (20_memory.md R61). -/
theorem resolve_busWrite_eq (f : AddrForm) (v : Byte) (s : State) : (resolve f s).st.busWrite (resolve f s).ea v =
    { s with
      mem := ((resolve f s).st.busWrite (resolve f s).ea v).mem
      deviceState := ((resolve f s).st.busWrite (resolve f s).ea v).deviceState
      accesses := (resolve f s).st.accesses ++ [.write (resolve f s).ea v] } := by
  apply State.ext <;> simp

/-- A write at a resolved address stores its byte there: the pointer reads leave memory alone. -/
theorem resolve_busWrite_byteStored (f : AddrForm) (v : Byte) (s : State) :
    ByteStored s ((resolve f s).st.busWrite (resolve f s).ea v) (resolve f s).ea v :=
  byteStored_of_same (resolve_st_params f s) (resolve_st_mem f s) (busWrite_byteStored _ _ v)

end Sys2Proof.Machine
end

section
/-! Load and store (40_load_store.md R130 to R136): which instructions they are, and that each is its operation on its register and
operand. -/

namespace Sys2Proof.Machine

open Sys2Proof.Claims

theorem loadRegister_eq_some {m : Mnemonic} {r : Reg} (h : loadRegister m = some r) :
    (m = .lda ∧ r = .a) ∨ (m = .ldx ∧ r = .x) ∨ (m = .ldy ∧ r = .y) := by
  cases m <;> cases h <;> simp

theorem storeRegister_eq_some {m : Mnemonic} {r : Reg} (h : storeRegister m = some r) :
    (m = .sta ∧ r = .a) ∨ (m = .stx ∧ r = .x) ∨ (m = .sty ∧ r = .y) := by
  cases m <;> cases h <;> simp

/-- A load has a source, and loads its register from it (R130 to R133). -/
theorem exec_load {i : Instr} {r : Reg} (h : loadRegister i.mnemonic = some r) :
    ∃ src, sourceOf i.operand = some src ∧ ∀ s, exec i s = .next (loadReg r src s) := by
  have hmo := mode_mem_modes i
  simp only [exec_eq_meaning]
  obtain ⟨hm, rfl⟩ | ⟨hm, rfl⟩ | ⟨hm, rfl⟩ := loadRegister_eq_some h
  all_goals
    rw [hm] at hmo ⊢
    obtain ⟨src, hs⟩ := sourceOf_of_mode (mem_of_subset hmo (by decide))
    exact ⟨src, hs, fun s => by simp only [meaning, hs]⟩

/-- A store names a place, and stores its register there (R130, R134 to R136). -/
theorem exec_store {i : Instr} {r : Reg} (h : storeRegister i.mnemonic = some r) :
    ∃ f, i.operand = .memory f ∧ ∀ s, exec i s = .next (storeReg r f s) := by
  have hmo := mode_mem_modes i
  simp only [exec_eq_meaning]
  obtain ⟨hm, rfl⟩ | ⟨hm, rfl⟩ | ⟨hm, rfl⟩ := storeRegister_eq_some h
  all_goals
    rw [hm] at hmo ⊢
    obtain ⟨f, hf⟩ := form_of_mode (mem_of_subset hmo (by decide))
    exact ⟨f, hf, fun s => by rw [hf]; rfl⟩

/-- The register a load names holds the byte read. -/
theorem loadReg_reg (r : Reg) (src : Source) (s : State) : (loadReg r src s).reg r = (src.read s).1 := by
  rw [loadReg_eq]
  cases r <;> rfl

theorem loadReg_p (r : Reg) (src : Source) (s : State) : (loadReg r src s).p = setZNBits s.p (src.read s).1 := by
  rw [loadReg_eq, State.withP_p]

/-- A load in one record: its register, P and the accesses of reading its source. -/
theorem loadReg_frame (r : Reg) (src : Source) (s : State) : loadReg r src s =
    { s.setReg r (src.read s).1 with
      p := (loadReg r src s).p
      deviceState := (src.read s).2.deviceState, accesses := (src.read s).2.accesses } := by
  rw [loadReg_eq]
  cases r <;> apply State.ext <;> simp

end Sys2Proof.Machine
end

section
namespace Sys2Proof.Proofs

open Sys2Proof.Machine Sys2Proof.Claims

/-- Settles O26: the forms byte by byte; a load is its register written from its source, with `setZN`. -/
theorem loadsPutTheOperandInTheirRegister : Obligations.LoadsPutTheOperandInTheirRegister := by
  unfold Obligations.LoadsPutTheOperandInTheirRegister
  refine ⟨formsAre_of_bytes (by decide +kernel), formsAre_of_bytes (by decide +kernel), formsAre_of_bytes (by decide +kernel),
    fun i r h => ?_⟩
  obtain ⟨src, hsrc, hexec⟩ := exec_load h
  exact ⟨src, hsrc, fun s => ⟨_, hexec s, loadReg_reg r src s, flagsBecome_setZNBits (loadReg_p r src s), loadReg_frame r src s⟩⟩

/-- Settles O27: the forms byte by byte; a store is one write of its register at the resolved address. -/
theorem storesPutTheirRegisterInMemory : Obligations.StoresPutTheirRegisterInMemory := by
  unfold Obligations.StoresPutTheirRegisterInMemory
  refine ⟨formsAre_of_bytes (by decide +kernel), formsAre_of_bytes (by decide +kernel), formsAre_of_bytes (by decide +kernel),
    fun i r h => ?_⟩
  obtain ⟨f, hf, hexec⟩ := exec_store h
  exact ⟨f, hf, fun s => ⟨_, hexec s, resolve_busWrite_byteStored f (s.reg r) s, resolve_busWrite_eq f (s.reg r) s⟩⟩

end Sys2Proof.Proofs
end

section
/-! Transfers and the stack instructions (41_transfer_stack.md R140 to R151): an instruction that ends with a register result, a push or a
pull does what the statements ask of it. -/

namespace Sys2Proof.Machine

open Sys2Proof.Claims

/-- `R <- v; setZN(v)` is all that the statements ask of a register result (R140; 00_scope.md R11). -/
theorem registerGets_of_result {i : Instr} {s : State} {r : Reg} {v : Byte} (h : exec i s = .next (s.result r v)) :
    RegisterGets i s r v := by
  refine ⟨_, h, ?_⟩
  rw [result_eq]
  refine ⟨?_, flagsBecome_setZNBits (State.withP_p _ _), ?_⟩ <;> cases r <;> rfl

/-- A push stores its byte in the slot of SP: that SP then goes down is no change of memory (20_memory.md R57). -/
theorem push_byteStored (s : State) (v : Byte) : ByteStored s (s.push v) (stackAddr s.sp) v :=
  busWrite_byteStored s (stackAddr s.sp) v

theorem pullA_p (s : State) : (pullA s).p = setZNBits s.p s.pull.1 := by
  rw [pullA_eq, State.withP_p]

/-- PLA in one record: A, SP, P and the one read (R150). -/
theorem pullA_frame (s : State) : pullA s = { s with
    a := s.pull.1, sp := s.sp + 1#8, p := (pullA s).p
    deviceState := (s.busRead (stackAddr (s.sp + 1#8))).2.deviceState
    accesses := s.accesses ++ [.read (stackAddr (s.sp + 1#8)) s.pull.1] } := by
  rw [pullA_eq, pull_eq]
  rfl

/-- PLP in one record: SP, P and the one read (R151). -/
theorem pullP_frame (s : State) : pullP s = { s with
    sp := s.sp + 1#8, p := pulledStatus s.pull.1
    deviceState := (s.busRead (stackAddr (s.sp + 1#8))).2.deviceState
    accesses := s.accesses ++ [.read (stackAddr (s.sp + 1#8)) s.pull.1] } := by
  rw [pullP_eq, pull_eq]
  rfl

end Sys2Proof.Machine
end

section
namespace Sys2Proof.Proofs

open Sys2Proof.Machine Sys2Proof.Claims

/-- Settles O28: the forms byte by byte; a transfer is a register result, and TXS writes SP alone. -/
theorem transfersCopyARegister : Obligations.TransfersCopyARegister := by
  unfold Obligations.TransfersCopyARegister
  refine ⟨formsAre_of_bytes (by decide +kernel), formsAre_of_bytes (by decide +kernel), formsAre_of_bytes (by decide +kernel),
    formsAre_of_bytes (by decide +kernel), formsAre_of_bytes (by decide +kernel), formsAre_of_bytes (by decide +kernel), fun s => ?_⟩
  exact ⟨registerGets_of_result (exec_eq_meaning .tax s), registerGets_of_result (exec_eq_meaning .tay s),
    registerGets_of_result (exec_eq_meaning .txa s), registerGets_of_result (exec_eq_meaning .tya s),
    registerGets_of_result (exec_eq_meaning .tsx s), exec_eq_meaning .txs s⟩

/-- Settles O29: the forms byte by byte; PHA and PHP are one push each, of A and of P with bits 4 and 5 set. -/
theorem pushInstructionsStoreOneByte : Obligations.PushInstructionsStoreOneByte := by
  unfold Obligations.PushInstructionsStoreOneByte
  refine ⟨formsAre_of_bytes (by decide +kernel), formsAre_of_bytes (by decide +kernel), fun s i v h => ?_⟩
  have hexec : exec i s = .next (s.push v) := by
    obtain ⟨rfl, rfl⟩ | ⟨rfl, rfl⟩ := h
    · exact exec_eq_meaning .pha s
    · exact exec_eq_meaning .php s
  exact ⟨s.push v, hexec, stackAddr_toNat s.sp, push_byteStored s v, rfl, push_accesses s v⟩

/-- Settles O30: the forms byte by byte; PLA is a pull into A with `setZN`, PLP a pull into P with bit 5 set. -/
theorem pullInstructionsLoadOneByte : Obligations.PullInstructionsLoadOneByte := by
  unfold Obligations.PullInstructionsLoadOneByte
  refine ⟨formsAre_of_bytes (by decide +kernel), formsAre_of_bytes (by decide +kernel), fun s => ⟨?_, ?_⟩⟩
  · exact ⟨pullA s, exec_eq_meaning .pla s, flagsBecome_setZNBits (pullA_p s), pullA_frame s⟩
  · exact (exec_eq_meaning .plp s).trans (congrArg Host.Outcome.next (pullP_frame s))

end Sys2Proof.Proofs
end

section
/-! Instructions that read a byte from a source (30_encoding.md R104): their form is always one that names a source, and the read changes
nothing but the devices' state and the list of accesses. -/

namespace Sys2Proof.Machine

open Sys2Proof.Claims

/-- An instruction of a mnemonic whose modes are all among LDA's, each of which reads a byte, is its operation on its source. -/
theorem exec_of_source {i : Instr} {m : Mnemonic} {k : Source → State → State} (hm : i.mnemonic = m)
    (hmodes : m.modes.all (Mnemonic.lda.modes.contains ·) = true)
    (hk : ∀ o src s, sourceOf o = some src → meaning m o s = .next (k src s)) :
    ∃ src, sourceOf i.operand = some src ∧ ∀ s, exec i s = .next (k src s) := by
  have hmo := mode_mem_modes i
  rw [hm] at hmo
  obtain ⟨src, hs⟩ := sourceOf_of_mode (mem_of_subset (mem_of_subset hmo hmodes) (by decide))
  exact ⟨src, hs, fun s => by rw [exec_eq_meaning, hm, hk _ _ s hs]⟩

/-- Reading a source in one record: the accesses and what they made of the devices. -/
theorem source_read_snd (src : Source) (s : State) : (src.read s).2 =
    { s with deviceState := (src.read s).2.deviceState, accesses := (src.read s).2.accesses } := by
  apply State.ext <;> simp

end Sys2Proof.Machine
end

section
/-! Logic and BIT (42_logic_arith.md R160 to R164): which bits the result and the flags have. -/

namespace Sys2Proof.Machine

open Sys2Proof.Claims

/-- The operation of a logical mnemonic (R161 to R163). -/
def logicOf : Mnemonic → Byte → Byte → Byte
  | .and => (· &&& ·)
  | .eor => (· ^^^ ·)
  | _    => (· ||| ·)

/-- The operation of a logical mnemonic is its Boolean connective, bit by bit. -/
theorem getLsbD_logicOf {m : Mnemonic} (h : m = .and ∨ m = .eor ∨ m = .ora) (a b : Byte) (k : Nat) :
    (logicOf m a b).getLsbD k =
      if m = .and then (a.getLsbD k && b.getLsbD k)
      else if m = .eor then xor (a.getLsbD k) (b.getLsbD k)
      else (a.getLsbD k || b.getLsbD k) := by
  obtain rfl | rfl | rfl := h
  · exact BitVec.getLsbD_and
  · exact BitVec.getLsbD_xor
  · exact BitVec.getLsbD_or

/-- A logical instruction has a source, and combines it into A (R160 to R163). -/
theorem exec_logic {i : Instr} (h : i.mnemonic = .and ∨ i.mnemonic = .eor ∨ i.mnemonic = .ora) :
    ∃ src, sourceOf i.operand = some src ∧ ∀ s, exec i s = .next (logicA (logicOf i.mnemonic) src s) := by
  obtain hm | hm | hm := h
  all_goals
    rw [hm]
    exact exec_of_source hm (by decide) fun o src s hs => by simp only [meaning, hs, logicOf]

theorem logicA_a (op : Byte → Byte → Byte) (src : Source) (s : State) : (logicA op src s).a = op s.a (src.read s).1 := by
  rw [logicA_eq, State.withP_a, State.withA_a]

theorem logicA_p (op : Byte → Byte → Byte) (src : Source) (s : State) :
    (logicA op src s).p = setZNBits s.p (logicA op src s).a := by
  rw [logicA_a, logicA_eq, State.withP_p]

/-- A logical operation in one record: A, P and the accesses of reading its source. -/
theorem logicA_frame (op : Byte → Byte → Byte) (src : Source) (s : State) : logicA op src s =
    { s with
      a := (logicA op src s).a, p := (logicA op src s).p
      deviceState := (src.read s).2.deviceState, accesses := (src.read s).2.accesses } := by
  apply State.ext <;> simp

/-- BIT names a place, and tests the byte there (R164). -/
theorem exec_bit {i : Instr} (h : i.mnemonic = .bit) : ∃ f, i.operand = .memory f ∧ ∀ s, exec i s = .next (bitTest f s) := by
  have hmo := mode_mem_modes i
  rw [h] at hmo
  obtain ⟨f, hf⟩ := form_of_mode (mem_of_subset hmo (by decide))
  exact ⟨f, hf, fun s => by rw [exec_eq_meaning, h, hf]; rfl⟩

/-- P after BIT, flag by flag (R164). -/
theorem flagsBecome_bitTestBits {s t : State} {a m : Byte} (h : t.p = bitTestBits s.p a m) :
    FlagsBecome s t [(.z, decide (a &&& m = 0#8)), (.v, m.getLsbD 6), (.n, m.getLsbD 7)] := by
  refine ⟨by rw [h, bit5_bitTestBits], fun f => ?_⟩
  rw [State.flag, h, bitTestBits, getFlag_setFlag, getFlag_setFlag, getFlag_setFlag, State.flag]
  cases f <;> rfl

end Sys2Proof.Machine
end

section
namespace Sys2Proof.Proofs

open Sys2Proof.Machine Sys2Proof.Claims

/-- Settles O31: the forms byte by byte; a logical instruction is its operation on A and its source, with `setZN`. -/
theorem logicalInstructionsCombineIntoA : Obligations.LogicalInstructionsCombineIntoA := by
  unfold Obligations.LogicalInstructionsCombineIntoA
  refine ⟨formsAre_of_bytes (by decide +kernel), formsAre_of_bytes (by decide +kernel), formsAre_of_bytes (by decide +kernel),
    fun i h => ?_⟩
  obtain ⟨src, hsrc, hexec⟩ := exec_logic h
  refine ⟨src, hsrc, fun s => ⟨_, hexec s, fun k _ => ?_, flagsBecome_setZNBits (logicA_p _ src s), logicA_frame _ src s⟩⟩
  rw [logicA_a, getLsbD_logicOf h]

/-- Settles O32: the forms byte by byte; BIT is one read at the resolved address, and writes P alone. -/
theorem bitTestsWithoutStoring : Obligations.BitTestsWithoutStoring := by
  unfold Obligations.BitTestsWithoutStoring
  refine ⟨formsAre_of_bytes (by decide +kernel), fun i h => ?_⟩
  obtain ⟨f, hf, hexec⟩ := exec_bit h
  exact ⟨f, hf, fun s => ⟨bitTest f s, hexec s, flagsBecome_bitTestBits rfl,
    congrArg (·.withP (bitTest f s).p) (source_read_snd (.memory f) s)⟩⟩

end Sys2Proof.Proofs
end

section
/-! The binary sum of R165 and R166 as numbers: its byte, its carry and its overflow, for a byte and for a byte's complement. -/

namespace Sys2Proof.Machine

theorem sumByte_toNat (a m : Byte) (c : Bool) : (sumByte a m c).toNat = (a.toNat + m.toNat + c.toNat) % 256 := rfl

/-- The test of bit 7 by a mask (R166). -/
theorem and_signMask_ne_zero (x : Byte) : (x &&& 0x80#8 != 0x00#8) = x.msb := by
  have hmask : x &&& 0x80#8 = if x.getLsbD 7 then 0x80#8 else 0#8 := BitVec.and_twoPow x 7
  rw [hmask, BitVec.msb_eq_getLsbD_last]
  cases x.getLsbD 7 <;> rfl

/-- V: the operands have one sign and the result has the other (R166). -/
theorem sumOverflow_eq_msb (a m : Byte) (c : Bool) :
    sumOverflow a m c = decide (a.msb = m.msb ∧ (sumByte a m c).msb ≠ a.msb) := by
  rw [sumOverflow, and_signMask_ne_zero, BitVec.msb_and, BitVec.msb_xor, BitVec.msb_xor]
  cases a.msb <;> cases m.msb <;> cases (sumByte a m c).msb <;> rfl

/-- Bit 7 of a byte as a number. -/
theorem byte_msb (x : Byte) : x.msb = decide (128 ≤ x.toNat) := BitVec.msb_eq_decide x

theorem sumByte_msb (a m : Byte) (c : Bool) : (sumByte a m c).msb = decide (128 ≤ (a.toNat + m.toNat + c.toNat) % 256) :=
  byte_msb _

/-- A signed byte is its number, less 256 where bit 7 is set. -/
theorem byte_toInt (x : Byte) : x.toInt = if x.msb then (x.toNat : Int) - 256 else x.toNat := by
  rw [BitVec.toInt_eq_msb_cond]
  rfl

/-- V is set exactly when the signed sum leaves -128..127. -/
theorem sumOverflow_iff_signed (a m : Byte) (c : Bool) : sumOverflow a m c = true ↔
    a.toInt + m.toInt + c.toNat < -128 ∨ 127 < a.toInt + m.toInt + c.toNat := by
  have ha := a.isLt
  have hm := m.isLt
  have hc := c.toNat_lt
  simp only [sumOverflow_eq_msb, byte_toInt, sumByte_msb, byte_msb a, byte_msb m, decide_eq_true_eq, decide_eq_decide, ne_eq]
  split <;> split <;> omega

/-- The complement of a byte is 255 less it (R165, R169). -/
theorem complement_toNat (m : Byte) : (complement m).toNat = 255 - m.toNat := by
  have hnot : complement m = ~~~m := BitVec.xor_allOnes
  rw [hnot, BitVec.toNat_not]

/-- The complement of a signed byte is -1 less it. -/
theorem complement_toInt (m : Byte) : (complement m).toInt = -1 - m.toInt := by
  have hm := m.isLt
  simp only [byte_toInt, byte_msb, complement_toNat, decide_eq_true_eq]
  split <;> split <;> omega

theorem complement_msb (m : Byte) : (complement m).msb = !m.msb := by
  have hm := m.isLt
  rw [byte_msb, byte_msb, complement_toNat, ← decide_not, decide_eq_decide]
  omega

/-- C of a difference: there is no borrow (R165, R169). -/
theorem sumCarry_complement (a m : Byte) (c : Bool) :
    sumCarry a (complement m) c = decide (m.toNat + (1 - c.toNat) ≤ a.toNat) := by
  have hm := m.isLt
  have hc := c.toNat_lt
  rw [sumCarry, sumWithCarry, complement_toNat, decide_eq_decide]
  omega

/-- V of a difference: the operands have two signs and the result's is not A's (R166). -/
theorem sumOverflow_complement_eq_msb (a m : Byte) (c : Bool) : sumOverflow a (complement m) c =
    decide (a.msb ≠ m.msb ∧ (sumByte a (complement m) c).msb ≠ a.msb) := by
  rw [sumOverflow_eq_msb, complement_msb, decide_eq_decide, Bool.eq_not]

/-- V is set exactly when the signed difference leaves -128..127. -/
theorem sumOverflow_complement_iff_signed (a m : Byte) (c : Bool) : sumOverflow a (complement m) c = true ↔
    a.toInt - m.toInt - (1 - c.toNat) < -128 ∨ 127 < a.toInt - m.toInt - (1 - c.toNat) := by
  have hsum : a.toInt + (-1 - m.toInt) + c.toNat = a.toInt - m.toInt - (1 - c.toNat) := by omega
  rw [sumOverflow_iff_signed, complement_toInt, hsum]

end Sys2Proof.Machine
end

section
/-! ADC and SBC (42_logic_arith.md R165 to R169): one addition, of the byte read and of its complement. D is not looked at (R167). -/

namespace Sys2Proof.Machine

open Sys2Proof.Claims

/-- ADC has a source, and adds it to A (R168). -/
theorem exec_adc {i : Instr} (h : i.mnemonic = .adc) :
    ∃ src, sourceOf i.operand = some src ∧ ∀ s, exec i s = .next (addToA id src s) :=
  exec_of_source h (by decide) fun o src s hs => by simp only [meaning, hs]

/-- SBC has a source, and adds its complement to A (R169). -/
theorem exec_sbc {i : Instr} (h : i.mnemonic = .sbc) :
    ∃ src, sourceOf i.operand = some src ∧ ∀ s, exec i s = .next (addToA complement src s) :=
  exec_of_source h (by decide) fun o src s hs => by simp only [meaning, hs]

section
variable (g : Byte → Byte) (src : Source) (s : State)

theorem addToA_a : (addToA g src s).a = sumByte s.a (g (src.read s).1) (s.flag .c) := by
  rw [addToA_eq, State.withP_a, State.withA_a]

/-- The flags after an addition: C and V of the sum, Z and N of the new A (R165, R166). -/
theorem addToA_flagsBecome : FlagsBecome s (addToA g src s)
    ([(.c, sumCarry s.a (g (src.read s).1) (s.flag .c)), (.v, sumOverflow s.a (g (src.read s).1) (s.flag .c))] ++
      zn (addToA g src s).a) := by
  rw [addToA_a, addToA_eq]
  refine ⟨bit5_setZNBits _ _, fun f => ?_⟩
  rw [flag_withP, sumBits, getFlag_setZNBits, getFlag_setFlag, getFlag_setFlag, ← State.flag]
  cases f <;> rfl

theorem addToA_flag_v : (addToA g src s).flag .v = sumOverflow s.a (g (src.read s).1) (s.flag .c) := by
  obtain ⟨-, hflag⟩ := addToA_flagsBecome g src s
  exact hflag .v

/-- An addition in one record: A, P and the accesses of reading its source. -/
theorem addToA_frame : addToA g src s =
    { s with
      a := (addToA g src s).a, p := (addToA g src s).p
      deviceState := (src.read s).2.deviceState, accesses := (src.read s).2.accesses } := by
  apply State.ext <;> simp

end

end Sys2Proof.Machine
end

section
namespace Sys2Proof.Proofs

open Sys2Proof.Machine Sys2Proof.Claims

/-- Settles O33: the forms byte by byte; ADC adds the byte read, and the sum's carry and overflow are those of its numbers. -/
theorem adcAddsWithCarry : Obligations.AdcAddsWithCarry := by
  unfold Obligations.AdcAddsWithCarry
  refine ⟨formsAre_of_bytes (by decide +kernel), fun i h => ?_⟩
  obtain ⟨src, hsrc, hexec⟩ := exec_adc h
  refine ⟨src, hsrc, fun s => ⟨_, hexec s, ?_, ?_, ?_, addToA_frame id src s⟩⟩
  · rw [addToA_a, sumByte_toNat, id]
  · have hflags := addToA_flagsBecome id src s
    rwa [sumOverflow_eq_msb, ← addToA_a] at hflags
  · rw [addToA_flag_v, sumOverflow_iff_signed, id]

/-- Settles O34: the forms byte by byte; SBC adds the complement of the byte read, so that carry means no borrow. -/
theorem sbcSubtractsWithBorrow : Obligations.SbcSubtractsWithBorrow := by
  unfold Obligations.SbcSubtractsWithBorrow
  refine ⟨formsAre_of_bytes (by decide +kernel), fun i h => ?_⟩
  obtain ⟨src, hsrc, hexec⟩ := exec_sbc h
  refine ⟨src, hsrc, fun s => ⟨_, hexec s, ?_, ?_, ?_, addToA_frame complement src s⟩⟩
  · rw [addToA_a, sumByte_toNat, complement_toNat]
  · have hflags := addToA_flagsBecome complement src s
    rwa [sumCarry_complement, sumOverflow_complement_eq_msb, ← addToA_a] at hflags
  · rw [addToA_flag_v, sumOverflow_complement_iff_signed]

end Sys2Proof.Proofs
end

section
/-! Compares (42_logic_arith.md R170 to R173): the status byte as a comparison of numbers. -/

namespace Sys2Proof.Machine

open Sys2Proof.Claims

theorem compareRegister_eq_some {m : Mnemonic} {r : Reg} (h : compareRegister m = some r) :
    (m = .cmp ∧ r = .a) ∨ (m = .cpx ∧ r = .x) ∨ (m = .cpy ∧ r = .y) := by
  cases m <;> cases h <;> simp

/-- A compare has a source, and compares its register with it (R170 to R173). -/
theorem exec_compare {i : Instr} {r : Reg} (h : compareRegister i.mnemonic = some r) :
    ∃ src, sourceOf i.operand = some src ∧ ∀ s, exec i s = .next (compareReg r src s) := by
  obtain ⟨hm, rfl⟩ | ⟨hm, rfl⟩ | ⟨hm, rfl⟩ := compareRegister_eq_some h
  all_goals exact exec_of_source hm (by decide) fun o src s hs => by simp only [meaning, hs]

/-- N of a compare: bit 7 of the difference modulo 256 (R170). -/
theorem sub_getLsbD_seven (r m : Byte) : (r - m).getLsbD 7 = decide (128 ≤ (r.toNat + 256 - m.toNat) % 256) := by
  have hm := m.isLt
  have hmsb : (r - m).getLsbD 7 = (r - m).msb := (BitVec.msb_eq_getLsbD_last _).symm
  rw [hmsb, byte_msb, BitVec.toNat_sub, decide_eq_decide]
  omega

/-- P after a compare, flag by flag (R170). -/
theorem flagsBecome_compareBits {s t : State} {r m : Byte} (h : t.p = compareBits s.p r m) : FlagsBecome s t
    [(.c, decide (m.toNat ≤ r.toNat)), (.z, decide (r.toNat = m.toNat)),
     (.n, decide (128 ≤ (r.toNat + 256 - m.toNat) % 256))] := by
  have hz : (r == m) = decide (r.toNat = m.toNat) := by rw [Bool.beq_eq_decide_eq, decide_eq_decide, BitVec.toNat_inj]
  refine ⟨by rw [h, bit5_compareBits], fun f => ?_⟩
  rw [State.flag, h, compareBits, hz, sub_getLsbD_seven, getFlag_setFlag, getFlag_setFlag, getFlag_setFlag, State.flag]
  cases f <;> rfl

end Sys2Proof.Machine
end

section
namespace Sys2Proof.Proofs

open Sys2Proof.Machine Sys2Proof.Claims

/-- Settles O35: the forms byte by byte; a compare reads its source, and writes P alone. -/
theorem comparesSetCarryZeroNegative : Obligations.ComparesSetCarryZeroNegative := by
  unfold Obligations.ComparesSetCarryZeroNegative
  refine ⟨formsAre_of_bytes (by decide +kernel), formsAre_of_bytes (by decide +kernel), formsAre_of_bytes (by decide +kernel),
    fun i r h => ?_⟩
  obtain ⟨src, hsrc, hexec⟩ := exec_compare h
  exact ⟨src, hsrc, fun s => ⟨compareReg r src s, hexec s, flagsBecome_compareBits rfl,
    congrArg (·.withP (compareReg r src s).p) (source_read_snd src s)⟩⟩

end Sys2Proof.Proofs
end

section
/-! What a read-modify-write of a byte of memory leaves (30_encoding.md R104; 20_memory.md R61): its pointer reads, one read and one write at
one address, and P. INC, DEC and the shifts differ in the byte they write and in the P they leave only. -/

namespace Sys2Proof.Machine

open Sys2Proof.Claims

/-- The state after the byte at the place of `f` is read, `r` is written there, and P becomes `p`. -/
def rewriteAt (f : AddrForm) (r p : Byte) (s : State) : State :=
  (((resolve f s).st.busRead (resolve f s).ea).2.busWrite (resolve f s).ea r).withP p

theorem stepMemory_eq_rewriteAt (g : Byte → Byte) (f : AddrForm) (s : State) : stepMemory g f s =
    rewriteAt f (g ((resolve f s).st.peek (resolve f s).ea)) (setZNBits s.p (g ((resolve f s).st.peek (resolve f s).ea))) s :=
  stepMemory_eq g f s

theorem shiftPlace_memory_eq_rewriteAt (op : Byte → Bool → Byte × Bool) (f : AddrForm) (s : State) :
    shiftPlace op (.memory f) s =
      rewriteAt f (op ((resolve f s).st.peek (resolve f s).ea) (s.flag .c)).1
        (shiftBits s.p (op ((resolve f s).st.peek (resolve f s).ea) (s.flag .c))) s :=
  shiftPlace_memory_eq op f s

section
variable (f : AddrForm) (r p : Byte) (s : State)

theorem rewriteAt_p : (rewriteAt f r p s).p = p := rfl

/-- The written byte stands at the resolved address: the reads before it leave memory alone. -/
theorem rewriteAt_byteStored : ByteStored s (rewriteAt f r p s) (resolve f s).ea r :=
  byteStored_of_same (source_read_params (.memory f) s) (source_read_mem (.memory f) s) (busWrite_byteStored _ _ r)

/-- A read-modify-write in one record: P, memory and the accesses, of which the last two are the read and the write. -/
theorem rewriteAt_frame : rewriteAt f r p s =
    { s with
      p := (rewriteAt f r p s).p, mem := (rewriteAt f r p s).mem
      deviceState := (((resolve f s).st.busRead (resolve f s).ea).2.busWrite (resolve f s).ea r).deviceState
      accesses := (resolve f s).st.accesses ++
        [.read (resolve f s).ea ((resolve f s).st.peek (resolve f s).ea), .write (resolve f s).ea r] } := by
  apply State.ext <;> simp [rewriteAt]

end

end Sys2Proof.Machine
end

section
/-! Increment and decrement (43_incdec_shift.md R180 to R186). -/

namespace Sys2Proof.Machine

theorem incByte_eq_ofNat (b : Byte) : incByte b = BitVec.ofNat 8 (b.toNat + 1) := by
  apply BitVec.eq_of_toNat_eq
  rw [incByte, BitVec.toNat_add, BitVec.toNat_ofNat]
  rfl

/-- To take 1 away is to add 255 modulo 256. -/
theorem decByte_eq_ofNat (b : Byte) : decByte b = BitVec.ofNat 8 (b.toNat + 255) := by
  apply BitVec.eq_of_toNat_eq
  rw [decByte, BitVec.toNat_sub, BitVec.toNat_ofNat, Nat.add_comm]
  rfl

/-- The operation of INC and DEC on a byte (R181, R182). -/
def stepOf : Mnemonic → Byte → Byte
  | .inc => incByte
  | _    => decByte

theorem stepOf_toNat {m : Mnemonic} (h : m = .inc ∨ m = .dec) (o : Byte) :
    (stepOf m o).toNat = if m = .inc then (o.toNat + 1) % 256 else (o.toNat + 255) % 256 := by
  obtain rfl | rfl := h
  · exact congrArg BitVec.toNat (incByte_eq_ofNat o)
  · exact congrArg BitVec.toNat (decByte_eq_ofNat o)

/-- INC and DEC name a place, and step the byte there (R180 to R182). -/
theorem exec_incDec {i : Instr} (h : i.mnemonic = .inc ∨ i.mnemonic = .dec) :
    ∃ f, i.operand = .memory f ∧ ∀ s, exec i s = .next (stepMemory (stepOf i.mnemonic) f s) := by
  have hmo := mode_mem_modes i
  simp only [exec_eq_meaning]
  obtain hm | hm := h
  all_goals
    rw [hm] at hmo ⊢
    obtain ⟨f, hf⟩ := form_of_mode (mem_of_subset hmo (by decide))
    exact ⟨f, hf, fun s => by rw [hf]; rfl⟩

end Sys2Proof.Machine
end

section
namespace Sys2Proof.Proofs

open Sys2Proof.Machine Sys2Proof.Claims

/-- Settles O36: the forms byte by byte; INC and DEC are a read-modify-write of the byte at the resolved address, with `setZN`. -/
theorem incAndDecStepAByteOfMemory : Obligations.IncAndDecStepAByteOfMemory := by
  unfold Obligations.IncAndDecStepAByteOfMemory
  refine ⟨formsAre_of_bytes (by decide +kernel), formsAre_of_bytes (by decide +kernel), fun i h => ?_⟩
  obtain ⟨f, hf, hexec⟩ := exec_incDec h
  simp only [stepMemory_eq_rewriteAt] at hexec
  exact ⟨f, hf, fun s => ⟨_, _, hexec s, stepOf_toNat h _, rewriteAt_byteStored f _ _ s,
    flagsBecome_setZNBits (rewriteAt_p f _ _ s), rewriteAt_frame f _ _ s⟩⟩

/-- Settles O37: the forms byte by byte; each is a register result. -/
theorem indexRegistersStepByOne : Obligations.IndexRegistersStepByOne := by
  unfold Obligations.IndexRegistersStepByOne
  refine ⟨formsAre_of_bytes (by decide +kernel), formsAre_of_bytes (by decide +kernel), formsAre_of_bytes (by decide +kernel),
    formsAre_of_bytes (by decide +kernel), fun s => ?_⟩
  simp only [← incByte_eq_ofNat, ← decByte_eq_ofNat]
  exact ⟨registerGets_of_result (exec_eq_meaning .inx s), registerGets_of_result (exec_eq_meaning .iny s),
    registerGets_of_result (exec_eq_meaning .dex s), registerGets_of_result (exec_eq_meaning .dey s)⟩

end Sys2Proof.Proofs
end

section
/-! Shifts and rotates (43_incdec_shift.md R187 to R191): the results as numbers, and where they go. -/

namespace Sys2Proof.Machine

open Sys2Proof.Claims

/-- Bit 7 of a byte, the one shifted out to the left, as a number. -/
theorem getLsbD_seven (o : Byte) : o.getLsbD 7 = decide (128 ≤ o.toNat) := by
  rw [← byte_msb, BitVec.msb_eq_getLsbD_last]

/-- Bit 0 of a byte, the one shifted out to the right, as a number. -/
theorem getLsbD_zero (o : Byte) : o.getLsbD 0 = decide (o.toNat % 2 = 1) := Nat.testBit_zero _

theorem shiftLeft_one_toNat (o : Byte) : (o <<< 1).toNat = 2 * o.toNat % 256 := by
  rw [BitVec.toNat_shiftLeft, Nat.shiftLeft_eq, Nat.mul_comm]

theorem shiftRight_one_toNat (o : Byte) : (o >>> 1).toNat = o.toNat / 2 := by
  rw [BitVec.toNat_ushiftRight, Nat.shiftRight_eq_div_pow]

/-- The old carry comes into bit 0, which the shift has cleared (R190). -/
theorem rotateLeft_toNat (o : Byte) (c : Bool) : (rotateLeft o c).1.toNat = (2 * o.toNat + c.toNat) % 256 := by
  have ho := o.isLt
  have hc := c.toNat_lt
  have hdisjoint : (o.toNat % 128) <<< 1 + c.toNat = (o.toNat % 128) <<< 1 ||| c.toNat :=
    Nat.shiftLeft_add_eq_or_of_lt hc _
  have hshift : (o <<< 1).toNat = (o.toNat % 128) <<< 1 := by
    rw [shiftLeft_one_toNat, Nat.shiftLeft_eq]
    omega
  have hcarry : (BitVec.ofNat 8 c.toNat).toNat = c.toNat := by cases c <;> rfl
  rw [rotateLeft, BitVec.toNat_or, hshift, hcarry, ← hdisjoint, Nat.shiftLeft_eq]
  omega

/-- The old carry comes into bit 7, which the shift has cleared (R191). -/
theorem rotateRight_toNat (o : Byte) (c : Bool) : (rotateRight o c).1.toNat = o.toNat / 2 + 128 * c.toNat := by
  have ho := o.isLt
  have hdisjoint : c.toNat <<< 7 + o.toNat / 2 = c.toNat <<< 7 ||| o.toNat / 2 := Nat.shiftLeft_add_eq_or_of_lt (by omega) _
  have hcarry : (BitVec.ofNat 8 c.toNat <<< 7).toNat = c.toNat <<< 7 := by cases c <;> rfl
  rw [rotateRight, BitVec.toNat_or, shiftRight_one_toNat, hcarry, Nat.or_comm, ← hdisjoint, Nat.shiftLeft_eq]
  omega

/-- The operation of a shift or rotate on a byte and the old carry (R188 to R191). -/
def shiftOf : Mnemonic → Byte → Bool → Byte × Bool
  | .asl => shiftLeft
  | .lsr => shiftRight
  | .rol => rotateLeft
  | _    => rotateRight

theorem shifted_eq_shiftOf {m : Mnemonic} (h : m = .asl ∨ m = .lsr ∨ m = .rol ∨ m = .ror) (o : Byte) (c : Bool) :
    shifted m o.toNat c.toNat = some ((shiftOf m o c).1.toNat, (shiftOf m o c).2) := by
  obtain rfl | rfl | rfl | rfl := h
  · exact congrArg some (Prod.ext (shiftLeft_one_toNat o).symm (getLsbD_seven o).symm)
  · exact congrArg some (Prod.ext (shiftRight_one_toNat o).symm (getLsbD_zero o).symm)
  · exact congrArg some (Prod.ext (rotateLeft_toNat o c).symm (getLsbD_seven o).symm)
  · exact congrArg some (Prod.ext (rotateRight_toNat o c).symm (getLsbD_zero o).symm)

/-- P after a shift or rotate, flag by flag (R187). -/
theorem flagsBecome_shiftBits {s t : State} {r : Byte × Bool} (h : t.p = shiftBits s.p r) :
    FlagsBecome s t ((.c, r.2) :: zn r.1) := by
  refine ⟨by rw [h, shiftBits, bit5_setZNBits], fun f => ?_⟩
  rw [State.flag, h, shiftBits, getFlag_setZNBits, getFlag_setFlag, State.flag]
  cases f <;> rfl

/-- An operand in a mode of the shifts is A or a place in memory. -/
theorem target_of_mode {o : Operand} (h : o.mode ∈ Mnemonic.asl.modes) : o = .accumulator ∨ ∃ f, o = .memory f := by
  cases o <;> simp [Operand.mode, Mnemonic.modes] at h ⊢

section
variable {i : Instr} (h : i.mnemonic = .asl ∨ i.mnemonic = .lsr ∨ i.mnemonic = .rol ∨ i.mnemonic = .ror)
include h

/-- A shift or rotate is of A or of a byte of memory (R187). -/
theorem shift_operand : i.operand = .accumulator ∨ ∃ f, i.operand = .memory f := by
  have hmo := mode_mem_modes i
  obtain hm | hm | hm | hm := h
  all_goals
    rw [hm] at hmo
    exact target_of_mode hmo

/-- A shift or rotate is its operation on its place (R187 to R191). -/
theorem exec_shift {t : Target} (ht : targetOf i.operand = some t) (s : State) :
    exec i s = .next (shiftPlace (shiftOf i.mnemonic) t s) := by
  rw [exec_eq_meaning]
  obtain hm | hm | hm | hm := h
  all_goals simp only [hm, meaning, ht, shiftOf]

end

end Sys2Proof.Machine
end

section
namespace Sys2Proof.Proofs

open Sys2Proof.Machine Sys2Proof.Claims

/-- Settles O38: each is its operation on A, whose byte and carry are those of the numbers. -/
theorem accumulatorShiftsByOneBit : Obligations.AccumulatorShiftsByOneBit := by
  intro i s h
  obtain ⟨hm, ho⟩ : (i.mnemonic = .asl ∨ i.mnemonic = .lsr ∨ i.mnemonic = .rol ∨ i.mnemonic = .ror) ∧
      i.operand = .accumulator := by
    obtain rfl | rfl | rfl | rfl := h <;> decide
  exact ⟨_, _, exec_shift hm (congrArg targetOf ho) s, shifted_eq_shiftOf hm s.a (s.flag .c), flagsBecome_shiftBits rfl, rfl⟩

/-- Settles O39: the forms byte by byte; in a memory form each is a read-modify-write of the byte at the resolved address, whose byte and
carry are those of the numbers. -/
theorem memoryShiftsByOneBit : Obligations.MemoryShiftsByOneBit := by
  unfold Obligations.MemoryShiftsByOneBit
  refine ⟨formsAre_of_bytes (by decide +kernel), formsAre_of_bytes (by decide +kernel), formsAre_of_bytes (by decide +kernel),
    formsAre_of_bytes (by decide +kernel), fun i h => ?_⟩
  obtain ho | ⟨f, hf⟩ := shift_operand h
  · exact .inl ho
  · have hexec := exec_shift h (congrArg targetOf hf)
    simp only [shiftPlace_memory_eq_rewriteAt] at hexec
    exact .inr ⟨f, hf, fun s => ⟨_, _, _, hexec s, shifted_eq_shiftOf h _ _, rewriteAt_byteStored f _ _ s,
      flagsBecome_shiftBits (rewriteAt_p f _ _ s), rewriteAt_frame f _ _ s⟩⟩

end Sys2Proof.Proofs
end

section
/-! Jumps, calls and returns (44_control.md R200 to R202): a return address pushed, and one pulled, each in one record. -/

namespace Sys2Proof.Machine

open Sys2Proof.Claims

theorem add_one_add_one (b : Byte) : b + 1#8 + 1#8 = b + 2#8 := BitVec.add_assoc b 1#8 1#8

/-- After one more write, every byte but for one more cell reads as before. -/
theorem othersUnchanged_busWrite {s t : State} {as : List Addr} (h : OthersUnchanged s t as) (hp : t.params = s.params)
    (a : Addr) (v : Byte) : OthersUnchanged s (t.busWrite a v) (as ++ [a]) := by
  intro b hb hne
  have hwrite : (t.busWrite a v).peek b = t.peek b :=
    peek_busWrite_of_ne t (hp ▸ hb) (hp ▸ hne a (by simp)) v
  exact hwrite.trans (h b hb fun c hc => hne c (List.mem_append_left [a] hc))

/-- A return address pushed in one record: two writes, and SP down by 2 (R201). -/
theorem pushAddr_eq (s : State) (ret : Addr) : s.pushAddr ret =
    { (s.busWrite (stackAddr s.sp) (hiByte ret)).busWrite (stackAddr (s.sp - 1#8)) (loByte ret) with sp := s.sp - 2#8 } := by
  rw [← sub_one_sub_one]
  rfl

/-- A pushed return address leaves alone every byte but for its two slots. -/
theorem pushAddr_othersUnchanged (s : State) (ret : Addr) :
    OthersUnchanged s (s.pushAddr ret) [stackAddr s.sp, stackAddr (s.sp - 1#8)] := by
  obtain ⟨-, -, hfirst⟩ := push_byteStored s (hiByte ret)
  exact othersUnchanged_busWrite hfirst (push_params s _) (stackAddr (s.sp - 1#8)) (loByte ret)

/-- The two bytes of a pushed return address stand on a plain stack: the second push leaves the slot of the first alone. -/
theorem peek_pushAddr {s : State} (w : s.mem.wf = true) (h : StackPlain s) (ret : Addr) :
    (s.pushAddr ret).peek (stackAddr s.sp) = hiByte ret ∧ (s.pushAddr ret).peek (stackAddr (s.sp - 1#8)) = loByte ret := by
  have hplain : StackPlain (s.push (hiByte ret)) := stackPlain_of_params h (push_params s _)
  have hne : s.sp ≠ (s.push (hiByte ret)).sp := by rw [push_sp]; bv_omega
  exact ⟨(peek_push_of_ne hplain hne (loByte ret)).trans (peek_push_same w h _), peek_push_same (push_wf w _) hplain _⟩

/-- An address pulled in one record: the low byte and the high byte read, and SP up by 2 (R202). -/
theorem pullAddr_eq (s : State) : s.pullAddr =
    ((s.busReadPair (stackAddr (s.sp + 1#8)) (stackAddr (s.sp + 2#8))).1,
     { (s.busReadPair (stackAddr (s.sp + 1#8)) (stackAddr (s.sp + 2#8))).2 with sp := s.sp + 2#8 }) := by
  rw [← add_one_add_one]
  rfl

/-- JSR calls from the value of PC (R201). -/
theorem exec_jsr {s : State} {pc : Addr} (hpc : s.pc = some pc) (a : Addr) : exec (.jsrAbs a) s = .next (callTo a s pc) :=
  withPcValue_next.mpr ⟨pc, hpc, rfl⟩

theorem exec_rts (s : State) : exec .rts s = .next (returnFromCall s) := exec_eq_meaning .rts s

/-- RTS goes one past the address whose bytes stand on a plain stack, the low byte at the next slot (R202). -/
theorem returnFromCall_pc {s : State} (h : StackPlain s) {ret : Addr} (hlo : s.peek (stackAddr (s.sp + 1#8)) = loByte ret)
    (hhi : s.peek (stackAddr (s.sp + 2#8)) = hiByte ret) : (returnFromCall s).pc = some (ret + 1#16) := by
  have hd : s.params.isDevice (stackAddr (s.sp + 2#8)) = false := isDevice_of_isRam (h _).1
  rw [returnFromCall_eq, State.withPc_pc, pullAddr_eq, busReadPair_fst, peekAfter_of_not_device hd, hlo, hhi, w16_loByte_hiByte]

end Sys2Proof.Machine
end

section
/-! Branches (44_control.md R203 to R212): which instructions they are, their condition, and their cycles. -/

namespace Sys2Proof.Machine

open Sys2Proof.Claims

section
variable {m : Mnemonic} {f : Flag} {b : Bool} (h : takenWhen m = some (f, b))
include h

theorem modes_of_takenWhen : m.modes = [.relative] := by
  cases m <;> cases h <;> rfl

/-- The condition of a branch is that its flag has the value it tests for (R205 to R212). -/
theorem branchCondition_of_takenWhen (p : Byte) : branchCondition m p = decide (getFlag p f = b) := by
  cases m <;> cases h <;> simp [branchCondition]

theorem meaning_branch (off : Byte) (s : State) :
    meaning m (.relative off) s = withPcValue s (branchIf (branchCondition m s.p) off s) := by
  cases m <;> cases h <;> rfl

end

/-- An operand in Relative mode is an offset. -/
theorem offset_of_mode {o : Operand} (h : o.mode = .relative) : ∃ off, o = .relative off := by
  cases o with
  | relative off => exact ⟨off, rfl⟩
  | memory f => cases f <;> cases h
  | _ => cases h

section
variable {i : Instr} {f : Flag} {b : Bool} (h : takenWhen i.mnemonic = some (f, b))
include h

/-- A branch has an offset. -/
theorem branch_operand : ∃ off, i.operand = .relative off := by
  have hmo := mode_mem_modes i
  rw [modes_of_takenWhen h, List.mem_singleton] at hmo
  exact offset_of_mode hmo

/-- A branch sets PC to its target where its flag has the value it tests for, and does nothing else (R203). -/
theorem exec_branch {off : Byte} (ho : i.operand = .relative off) {s : State} {pc : Addr} (hpc : s.pc = some pc) :
    exec i s = .next (if s.flag f = b then s.withPc (some (relativeTarget pc off)) else s) := by
  rw [exec_eq_meaning, ho, meaning_branch h, branchCondition_of_takenWhen h, ← State.flag, withPcValue, hpc]
  by_cases hc : s.flag f = b <;> simp [branchIf, hc]

/-- The opcode table's entry of a branch, read off for the eight instructions that are branches (30_encoding.md R107). -/
theorem opTab_branch : opTab i.opcode = some ⟨i.mnemonic, .relative, 2, 2, false⟩ := by
  cases i <;> cases h <;> dsimp only [Instr.opcode, Instr.mnemonic] <;> rfl

end

/-- The first byte of the bytes that decode at `pc` is the instruction's opcode byte. -/
theorem peek_of_decodesAt {s : State} {pc : Addr} {i : Instr} (h : decodesAt s pc i) : s.peek pc = i.opcode := by
  obtain ⟨op, r, operand, hr, hm, hb⟩ := decode_eq_ok_iff.mp h
  obtain ⟨-, he⟩ := opRow_agrees hr hm
  rw [List.append_nil, ← he, bytesOf_eq] at hb
  exact (List.cons.inj hb).1

/-- The counts of a branch: the parameters' row for its opcode byte, or else 2 and no mark (30_encoding.md R107; 00_scope.md R8). -/
theorem counts_branch {i : Instr} {f : Flag} {b : Bool} (h : takenWhen i.mnemonic = some (f, b)) (p : Params) :
    baseCycles p i.opcode = ((p.timingOf i.opcode).map TimingRow.base).getD 2 ∧
    pagePenalty p i.opcode = ((p.timingOf i.opcode).map TimingRow.pen).getD false := by
  rw [baseCycles, pagePenalty, opTab_branch h]
  exact ⟨rfl, rfl⟩

/-- A branch crosses where its target lies in another page than the address after it (44_control.md R204). -/
theorem operandCrosses_relative {s : State} {pc : Addr} (hpc : s.pc = some pc) (off : Byte) :
    operandCrosses (.relative off) s = decide ((relativeTarget pc off).toNat / 256 ≠ pc.toNat / 256) := by
  rw [operandCrosses, hpc, Option.any_some, ← Bool.decide_coe (pageDiffers _ _), decide_eq_decide, pageDiffers_iff, ne_comm]

/-- A branch has two bytes (30_encoding.md R83). -/
theorem encode_branch_length {i : Instr} {off : Byte} (ho : i.operand = .relative off) : (encode i).length = 2 := by
  rw [encode, ho]
  rfl

/-- The cycle count of a branch: its base count, the model's own summand where its byte is marked, and what R203 adds to a branch that
is taken (70_reset_and_hazards.md R281; log 6). -/
theorem cycleCount_branch {i : Instr} {f : Flag} {b : Bool} (h : takenWhen i.mnemonic = some (f, b)) {off : Byte}
    (ho : i.operand = .relative off) {s : State} {pc : Addr} (hpc : s.pc = some pc) :
    let crossed := (relativeTarget pc off).toNat / 256 ≠ pc.toNat / 256
    cycleCount i s = ((s.params.timingOf i.opcode).map TimingRow.base).getD 2
      + (if ((s.params.timingOf i.opcode).map TimingRow.pen).getD false = true ∧ crossed then 1 else 0)
      + if s.flag f = b then (if crossed then 2 else 1) else 0 := by
  intro crossed
  obtain ⟨hbase, hpen⟩ := counts_branch h s.params
  have htaken : branchCondition i.mnemonic s.p = decide (s.flag f = b) := branchCondition_of_takenWhen h s.p
  have hcross : operandCrosses i.operand s = decide crossed := by rw [ho, operandCrosses_relative hpc]
  rw [cycleCount, branchExtra, hbase, hpen, htaken, hcross]
  generalize ((s.params.timingOf i.opcode).map TimingRow.pen).getD false = pen
  by_cases hc : crossed <;> cases pen <;> simp [hc]

end Sys2Proof.Machine
end

section
namespace Sys2Proof.Proofs

open Sys2Proof.Machine Sys2Proof.Claims

/-- Settles O40: the forms byte by byte; the Indirect form's pointer reads are those of the resolver. -/
theorem jmpGoesToItsTarget : Obligations.JmpGoesToItsTarget := by
  unfold Obligations.JmpGoesToItsTarget
  refine ⟨formsAre_of_bytes (by decide +kernel), fun s a => ⟨exec_eq_meaning (.jmpAbs a) s, ?_⟩⟩
  dsimp only
  rw [ofNat_pageWrapNext]
  exact ⟨w16 (s.peek a) (s.peekAfter a (pageWrapNext a)), w16_toNat _ _, exec_eq_meaning (.jmpInd a) s⟩

/-- Settles O41: the forms byte by byte; JSR is the push of PC - 1 and a new PC. -/
theorem jsrPushesTheReturnAddressLessOne : Obligations.JsrPushesTheReturnAddressLessOne := by
  unfold Obligations.JsrPushesTheReturnAddressLessOne
  refine ⟨formsAre_of_bytes (by decide +kernel), fun s a pc hpc => ?_⟩
  have hframe := congrArg (·.withPc (some a)) (pushAddr_eq s (pc - 1#16))
  exact ⟨callTo a s pc, exec_jsr hpc a, fun w h => peek_pushAddr w h (pc - 1#16), pushAddr_othersUnchanged s (pc - 1#16), hframe,
    pushAddr_accesses s (pc - 1#16)⟩

/-- Settles O42: the forms byte by byte; RTS is the pull of an address, and PC one past it. -/
theorem rtsGoesOnePastThePulledAddress : Obligations.RtsGoesOnePastThePulledAddress := by
  unfold Obligations.RtsGoesOnePastThePulledAddress
  refine ⟨formsAre_of_bytes (by decide +kernel), fun s => ?_⟩
  refine ⟨s.pullAddr.1 + 1#16, ?_, ?_⟩
  · rw [BitVec.toNat_add, pullAddr_eq, busReadPair_fst, w16_toNat]
    rfl
  · rw [exec_rts, returnFromCall_eq, pullAddr_eq]
    rfl

/-- Settles O43: the forms byte by byte; each branch is its condition and its target. -/
theorem branchesGoToTheirTargetOnTheirCondition : Obligations.BranchesGoToTheirTargetOnTheirCondition := by
  unfold Obligations.BranchesGoToTheirTargetOnTheirCondition
  refine ⟨formsAre_of_bytes (by decide +kernel), formsAre_of_bytes (by decide +kernel), formsAre_of_bytes (by decide +kernel),
    formsAre_of_bytes (by decide +kernel), formsAre_of_bytes (by decide +kernel), formsAre_of_bytes (by decide +kernel),
    formsAre_of_bytes (by decide +kernel), formsAre_of_bytes (by decide +kernel), fun i f b h => ?_⟩
  obtain ⟨off, ho⟩ := branch_operand h
  exact ⟨off, ho, fun s pc hpc => ⟨relativeTarget pc off, relativeTarget_toNat pc off, exec_branch h ho hpc⟩⟩

/-- Settles O44: RTS finds the two bytes JSR pushed, and one past PC - 1 is PC. -/
theorem returnUndoesACall : Obligations.ReturnUndoesACall := by
  intro s a pc w h hpc
  refine ⟨callTo a s pc, exec_jsr hpc a, rfl, fun u hparams hcalled hpushed => ?_⟩
  have hsp : u.sp = s.sp - 2#8 := by rw [hcalled, callTo_eq, State.withPc_sp, pushAddr_eq]
  refine ⟨returnFromCall u, exec_rts u, ?_, ?_, ?_⟩
  · have hplain : StackPlain u := stackPlain_of_params h (by rw [hparams, callTo_eq, State.withPc_params, pushAddr_params])
    obtain ⟨hhi, hlo⟩ := peek_pushAddr w h (pc - 1#16)
    have hslot1 : u.sp + 1#8 = s.sp - 1#8 := by bv_omega
    have hslot2 : u.sp + 2#8 = s.sp := by bv_omega
    have hulo : u.peek (stackAddr (u.sp + 1#8)) = loByte (pc - 1#16) := by rw [hslot1]; exact (hpushed _ (by simp)).trans hlo
    have huhi : u.peek (stackAddr (u.sp + 2#8)) = hiByte (pc - 1#16) := by rw [hslot2]; exact (hpushed _ (by simp)).trans hhi
    rw [returnFromCall_pc hplain hulo huhi, BitVec.sub_add_cancel]
  · rw [returnFromCall_eq, State.withPc_sp, pullAddr_eq, hsp, BitVec.sub_add_cancel]
  · rw [returnFromCall_eq, State.withPc_mem, pullAddr_mem]

/-- Settles O53: the step runs the branch with PC past its two bytes and charges the count of its opcode byte. -/
theorem branchesCostTwoThreeOrFour : Obligations.BranchesCostTwoThreeOrFour := by
  intro s pc i f b off hat h htake ho
  have hfetch := fetchInstr_of_decodesAt h
  obtain ⟨hp, hparams, -⟩ := fetchInstr_ok_frame hfetch
  have hnext : (fetched s pc i).pc = some (BitVec.ofNat 16 (pc.toNat + 2)) := by
    rw [fetched, encode_branch_length ho]
  have hflag : (fetched s pc i).flag f = s.flag f := congrArg (getFlag · f) hp
  have hcount := cycleCount_branch htake ho hnext
  have hstep := step_of_fetch hat hfetch
  rw [exec_branch htake ho hnext] at hstep
  rw [hflag] at hcount hstep
  rw [hparams] at hcount
  rw [peek_of_decodesAt h]
  refine ⟨_, relativeTarget (BitVec.ofNat 16 (pc.toNat + 2)) off, hstep, relativeTarget_toNat _ off, ?_, congrArg some hcount⟩
  have hmod : BitVec.ofNat 16 ((pc.toNat + 2) % 65536) = BitVec.ofNat 16 (pc.toNat + 2) := by
    apply BitVec.eq_of_toNat_eq
    simp
  rw [State.withCycles_pc, hmod]
  by_cases hc : s.flag f = b
  · simp [hc]
  · simp [hc, hnext]

end Sys2Proof.Proofs
end

section
/-! The flag instructions (45_flags_system.md R220 to R227): their meaning, their one byte, and the step that finds one. -/

namespace Sys2Proof.Machine

open Sys2Proof.Claims

/-- One flag of P written is what the statements list as that flag with its value (10_state.md R25, R26). -/
theorem flagsBecome_setFlag {s t : State} {f : Flag} {b : Bool} (h : t.p = setFlag s.p f b) : FlagsBecome s t [(f, b)] := by
  refine ⟨by rw [h, bit5_setFlag], fun g => ?_⟩
  rw [State.flag, h, getFlag_setFlag, State.flag]
  by_cases hg : g = f
  · simp [hg]
  · simp [hg, List.lookup, beq_false_of_ne hg]

/-- The meaning of a mnemonic that writes a flag is that write (R221 to R227). -/
theorem meaning_of_flagWritten {m : Mnemonic} {f : Flag} {b : Bool} (h : flagWritten m = some (f, b)) (o : Operand) (s : State) :
    meaning m o s = .next (s.setFlag f b) := by
  cases m <;> cases h <;> rfl

theorem exec_flagInstruction {i : Instr} {f : Flag} {b : Bool} (h : flagWritten i.mnemonic = some (f, b)) (s : State) :
    exec i s = .next (s.setFlag f b) :=
  (exec_eq_meaning i s).trans (meaning_of_flagWritten h i.operand s)

theorem modes_of_flagWritten {m : Mnemonic} {f : Flag} {b : Bool} (h : flagWritten m = some (f, b)) : m.modes = [.implicit] := by
  cases m <;> cases h <;> rfl

/-- A flag instruction is one byte long (30_encoding.md R83). -/
theorem encode_flagInstruction_length {i : Instr} {f : Flag} {b : Bool} (h : flagWritten i.mnemonic = some (f, b)) :
    (encode i).length = 1 := by
  have hmode := mode_mem_modes i
  rw [modes_of_flagWritten h, List.mem_singleton] at hmode
  rw [encode, List.length_cons, operand_bytes_length, hmode]
  rfl

/-- The fetch of an instruction leaves the NMI latch alone. -/
theorem fetchInstr_ok_nmiPending {s v : State} {pc : Addr} {i : Instr} (h : s.fetchInstr pc = .ok (i, v)) :
    v.nmiPending = s.nmiPending := by
  obtain ⟨f, hf⟩ := fetchInstr_ok h
  rw [show v = ((s.fetchByte pc).2.fetchOperands (addrPlus pc 1) f).2 from congrArg Prod.snd hf, fetchOperands_nmiPending,
    fetchByte_nmiPending]

/-- The step that finds a flag instruction goes to the next byte, writes the flag in P, and leaves no NMI pending (R220; 30_encoding.md
R87). -/
theorem step_flagInstruction {s : State} {pc : Addr} {i : Instr} {f : Flag} {b : Bool} (hat : AtFetch s pc)
    (h : decodesAt s pc i) (hf : flagWritten i.mnemonic = some (f, b)) :
    ∃ t, step s = .next t ∧ t.pc = some (pc + 1#16) ∧ t.p = setFlag s.p f b ∧ t.nmiPending = false := by
  have hfetch := fetchInstr_of_decodesAt h
  obtain ⟨hp, -, -⟩ := fetchInstr_ok_frame hfetch
  have hnmi := fetchInstr_ok_nmiPending hfetch
  have hpc : (fetched s pc i).pc = some (pc + 1#16) := by
    rw [fetched_eq, encode_flagInstruction_length hf]
    rfl
  have hstep := step_of_fetch hat hfetch
  obtain ⟨-, hn, -⟩ := hat
  rw [exec_flagInstruction hf, setFlag_eq, hp] at hstep
  exact ⟨_, hstep, hpc, rfl, hnmi.trans hn⟩

end Sys2Proof.Machine
end

section
/-! An exception entered (45_flags_system.md R228; 60_exceptions.md R245): all that `Entered` asks of it, clause by clause. -/

namespace Sys2Proof.Machine

open Sys2Proof.Claims

theorem framePushed_eq (s : State) (ret : Addr) (status : Byte) : framePushed s ret status =
    ((s.busWrite (stackAddr s.sp) (hiByte ret)).busWrite (stackAddr (s.sp - 1#8)) (loByte ret)).busWrite
      (stackAddr (s.sp - 2#8)) status := by
  rw [framePushed, sub_one_sub_one]

/-- After the three pushes a read gives what it gives after the pushes of the return address and the status byte. -/
theorem peek_framePushed (s : State) (ret : Addr) (status : Byte) (a : Addr) :
    (framePushed s ret status).peek a = ((s.pushAddr ret).push status).peek a := by
  rw [← peek_masked s ret status s.p, peek_withP]

/-- The third slot: where the status byte goes after the return address. -/
theorem pushAddr_sp_eq (s : State) (ret : Addr) : (s.pushAddr ret).sp = s.sp - 2#8 := by
  rw [pushAddr_sp, sub_one_sub_one]

/-- The three pushes leave alone every byte but for their slots. -/
theorem framePushed_othersUnchanged (s : State) (ret : Addr) (status : Byte) :
    OthersUnchanged s (framePushed s ret status) [stackAddr s.sp, stackAddr (s.sp - 1#8), stackAddr (s.sp - 2#8)] := by
  intro b hb hne
  rw [← pushAddr_sp_eq s ret] at hne
  rw [peek_framePushed, State.push, peek_withSp]
  exact othersUnchanged_busWrite (pushAddr_othersUnchanged s ret) (pushAddr_params s ret) _ status b hb hne

/-- The three pushed bytes stand on a plain stack. -/
theorem peek_framePushed_of_plain {s : State} (w : s.mem.wf = true) (h : StackPlain s) (ret : Addr) (status : Byte) :
    (framePushed s ret status).peek (stackAddr s.sp) = hiByte ret ∧
    (framePushed s ret status).peek (stackAddr (s.sp - 1#8)) = loByte ret ∧
    (framePushed s ret status).peek (stackAddr (s.sp - 2#8)) = status := by
  have hplain : StackPlain (s.pushAddr ret) := stackPlain_of_params h (pushAddr_params s ret)
  have hsp := pushAddr_sp_eq s ret
  obtain ⟨hhi, hlo⟩ := peek_pushAddr w h ret
  rw [peek_framePushed, peek_framePushed, peek_framePushed]
  refine ⟨?_, ?_, ?_⟩
  · rw [peek_push_of_ne hplain (by rw [hsp]; bv_omega), hhi]
  · rw [peek_push_of_ne hplain (by rw [hsp]; bv_omega), hlo]
  · rw [← hsp, peek_push_same (pushAddr_wf w ret) hplain]

/-- A write apart from `v` leaves a read at `v` as it was, whatever reads `g` made of the devices in between. -/
theorem readByte_busWrite_of_apart {s u : State} (hu : u.params = s.params) {a v : Addr} (h : Apart s a v) (x : Byte)
    (g : Nat → Nat) :
    s.params.readByte (u.busWrite a x).mem (g (u.busWrite a x).deviceState) v = s.params.readByte u.mem (g u.deviceState) v := by
  obtain ⟨hcell, hdev⟩ := h
  rw [busWrite_mem, busWrite_deviceState, hu, readByte_writeByte_of_ne hcell]
  rcases hdev with ha | hv
  · rw [devicesAfterWrite_of_not_device ha]
  · exact readByte_count hv _ _ _

/-- Pushes apart from `v` leave a read at `v` as it was, whatever reads `g` made of the devices in between. -/
theorem readByte_framePushed_of_apart {s : State} {v : Addr}
    (h : ∀ a ∈ [stackAddr s.sp, stackAddr (s.sp - 1#8), stackAddr (s.sp - 2#8)], Apart s a v) (ret : Addr) (status : Byte)
    (g : Nat → Nat) :
    s.params.readByte (framePushed s ret status).mem (g (framePushed s ret status).deviceState) v =
      s.params.readByte s.mem (g s.deviceState) v := by
  have h1 := h (stackAddr s.sp) (by simp)
  have h2 := h (stackAddr (s.sp - 1#8)) (by simp)
  have h3 := h (stackAddr (s.sp - 2#8)) (by simp)
  rw [framePushed_eq, readByte_busWrite_of_apart (by simp) h3, readByte_busWrite_of_apart (by simp) h2,
    readByte_busWrite_of_apart (by simp) h1]

/-- An exception taken, in one record: the three pushes, SP down by 3, I set, and PC the word read at the vector after them. -/
theorem takeException_frame (s : State) (ret : Addr) (status : Byte) (vector : Addr) : s.takeException ret status vector = { s with
    sp := s.sp - 3#8, p := (s.takeException ret status vector).p
    pc := some (w16 ((framePushed s ret status).peek vector) ((framePushed s ret status).peekAfter vector (vector + 1#16)))
    mem := (framePushed s ret status).mem
    deviceState := (readsAt [vector, vector + 1#16] (framePushed s ret status)).2.deviceState
    accesses := s.accesses ++ [.write (stackAddr s.sp) (hiByte ret), .write (stackAddr (s.sp - 1#8)) (loByte ret),
      .write (stackAddr (s.sp - 2#8)) status, .read vector ((framePushed s ret status).peek vector),
      .read (vector + 1#16) ((framePushed s ret status).peekAfter vector (vector + 1#16))] } := by
  have hsp : s.sp - 2#8 - 1#8 = s.sp - 3#8 := by bv_omega
  apply State.ext <;> simp [readsAt, framePushed_params, hsp, sub_one_sub_one]

/-- A byte of memory reads after the exception as after its pushes. -/
theorem peek_takeException (s : State) (ret : Addr) (status : Byte) (vector : Addr) {a : Addr} (h : s.params.isDevice a = false) :
    (s.takeException ret status vector).peek a = (framePushed s ret status).peek a := by
  have hp : (s.takeException ret status vector).params = (framePushed s ret status).params := by
    rw [takeException_params, framePushed_params]
  exact peek_of_same hp (takeException_mem s ret status vector) (by rwa [framePushed_params])

/-- Taking an exception enters it as the statements say. -/
theorem takeException_entered (s : State) (ret : Addr) (status : Byte) (vector : Addr) :
    Entered s (s.takeException ret status vector) ret status vector := by
  unfold Entered
  dsimp only
  rw [← framePushed_eq, peek_busRead, peek_busRead]
  refine ⟨flagsBecome_setFlag (takeException_p ..), takeException_frame s ret status vector, fun w h => ?_, fun b hb hne => ?_,
    fun h => ?_⟩
  · have hslot (sp : Byte) := peek_takeException s ret status vector (isDevice_of_isRam (h sp).1)
    rw [hslot, hslot, hslot]
    exact peek_framePushed_of_plain w h ret status
  · rw [peek_takeException s ret status vector hb]
    exact framePushed_othersUnchanged s ret status b hb hne
  · have hread {v : Addr} (hv : v ∈ [vector, vector + 1#16]) (g : Nat → Nat) :=
      readByte_framePushed_of_apart (fun a ha => h a ha v hv) ret status g
    rw [peek_eq, State.peekAfter, framePushed_params]
    exact ⟨hread (by simp) id, hread (by simp) (s.params.devicesAfterRead · vector)⟩

/-- BRK takes its exception from the value of PC (R228). -/
theorem exec_brk {s : State} {pc : Addr} (hpc : s.pc = some pc) : exec .brk s = .next (breakFrom s pc) :=
  withPcValue_next.mpr ⟨pc, hpc, rfl⟩

/-- A step that accepts an IRQ enters it (60_exceptions.md R243, R245). -/
theorem irq_entered {s : State} {pc : Addr} (hpc : s.pc = some pc) (hn : s.nmiPending = false) (hq : s.irqAccepted = true) :
    ∃ u, step s = .next { u with cycles := some 7 } ∧
      Entered { s with cycles := none, accesses := [] } u pc (interruptStatus s.p) 0xFFFE#16 :=
  ⟨s.beginCall.enterIrq pc, step_of_irq hpc hn hq, takeException_entered s.beginCall pc (pushedByInterrupt s.p) irqBrkVector⟩

/-- A step that finds an NMI pending clears the latch and enters it (60_exceptions.md R244, R245). -/
theorem nmi_entered {s : State} {pc : Addr} (hpc : s.pc = some pc) (hn : s.nmiPending = true) :
    ∃ u, step s = .next { u with cycles := some 7 } ∧
      Entered { s with nmiPending := false, cycles := none, accesses := [] } u pc (interruptStatus s.p) 0xFFFA#16 :=
  ⟨s.beginCall.enterNmi pc, step_of_nmi hpc hn,
    takeException_entered (s.beginCall.withNmiPending false) pc (pushedByInterrupt s.p) nmiVector⟩

end Sys2Proof.Machine
end

section
/-! The return from an exception (45_flags_system.md R229; 60_exceptions.md R247), also from one that was entered on a plain stack. -/

namespace Sys2Proof.Machine

open Sys2Proof.Claims

theorem exec_rti (s : State) : exec .rti s = .next s.returnFromException := exec_eq_meaning .rti s

/-- The return in one record: P from the next slot, PC from the two after it, SP up by 3 (R229). -/
theorem returnFromException_frame (s : State) :
    let st := s.busRead (stackAddr (s.sp + 1#8))
    let lo := st.2.busRead (stackAddr (s.sp + 2#8))
    let hi := lo.2.busRead (stackAddr (s.sp + 3#8))
    s.returnFromException = { hi.2 with p := st.1 ||| 0x20#8, sp := s.sp + 3#8, pc := some (w16 lo.1 hi.1) } := by
  have h2 : s.sp + 2#8 = s.sp + 1#8 + 1#8 := by bv_omega
  have h3 : s.sp + 3#8 = s.sp + 1#8 + 1#8 + 1#8 := by bv_omega
  rw [h2, h3]
  rfl

/-- A return on a plain stack goes to the address whose bytes stand in the second and third slot. -/
theorem returnFromException_pc_of_plain {s : State} (h : StackPlain s) {ret : Addr}
    (hlo : s.peek (stackAddr (s.sp + 2#8)) = loByte ret) (hhi : s.peek (stackAddr (s.sp + 3#8)) = hiByte ret) :
    s.returnFromException.pc = some ret := by
  have hslot (sp : Byte) : s.params.isDevice (stackAddr sp) = false := isDevice_of_isRam (h sp).1
  have h2 : s.sp + 1#8 + 1#8 = s.sp + 2#8 := by bv_omega
  have h3 : s.sp + 2#8 + 1#8 = s.sp + 3#8 := by bv_omega
  rw [returnFromException_pc, h2, h3, peekAfter_of_not_device (hslot _), peekAfter2_of_not_device (hslot _), hlo, hhi,
    w16_loByte_hiByte]

/-- A return from a state that still has the stack an exception left resumes at the pushed address, with SP as before the exception
and P as pushed, bit 5 set (60_exceptions.md R247). -/
theorem returnFromException_of_entered {s t w : State} {ret vector : Addr} {status : Byte} (hwf : s.mem.wf = true)
    (hplain : StackPlain s) (h : Entered s t ret status vector) (hparams : w.params = t.params) (hsp : w.sp = t.sp)
    (hpushed : ∀ k : Byte, k ∈ [s.sp, s.sp - 1#8, s.sp - 2#8] → w.peek (stackAddr k) = t.peek (stackAddr k)) :
    w.returnFromException.pc = some ret ∧ w.returnFromException.sp = s.sp ∧
      w.returnFromException.p = pulledStatus status := by
  obtain ⟨-, hframe, hbytes, -, -⟩ := h
  obtain ⟨hhi, hlo, hst⟩ := hbytes hwf hplain
  have hwplain : StackPlain w := stackPlain_of_params hplain (by rw [hparams, hframe])
  have hwsp : w.sp = s.sp - 3#8 := by rw [hsp, hframe]
  have hslot1 : w.sp + 1#8 = s.sp - 2#8 := by bv_omega
  have hslot2 : w.sp + 2#8 = s.sp - 1#8 := by bv_omega
  have hslot3 : w.sp + 3#8 = s.sp := by bv_omega
  refine ⟨returnFromException_pc_of_plain hwplain ?_ ?_, ?_, ?_⟩
  · rw [hslot2, hpushed _ (by simp), hlo]
  · rw [hslot3, hpushed _ (by simp), hhi]
  · rw [returnFromException_sp]; bv_omega
  · rw [returnFromException_p, hslot1, hpushed _ (by simp), hst]

/-- The status byte BRK pushes has bit 5 set already. -/
theorem pulledStatus_pushedByInstruction (p : Byte) : pulledStatus (pushedByInstruction p) = pushedByInstruction p := by
  rw [pulledStatus, pushedByInstruction, BitVec.or_assoc]
  rfl

end Sys2Proof.Machine
end

section
namespace Sys2Proof.Proofs

open Sys2Proof.Machine Sys2Proof.Claims

/-- Settles O45: the forms byte by byte; a flag instruction is one write of its flag in P. -/
theorem flagInstructionsWriteOneFlag : Obligations.FlagInstructionsWriteOneFlag := by
  unfold Obligations.FlagInstructionsWriteOneFlag
  refine ⟨formsAre_of_bytes (by decide +kernel), formsAre_of_bytes (by decide +kernel), formsAre_of_bytes (by decide +kernel),
    formsAre_of_bytes (by decide +kernel), formsAre_of_bytes (by decide +kernel), formsAre_of_bytes (by decide +kernel),
    formsAre_of_bytes (by decide +kernel), fun i f b h s => ?_⟩
  exact ⟨s.setFlag f b, exec_flagInstruction h s, flagsBecome_setFlag rfl, rfl⟩

/-- Settles O46: the boundary after CLI or SEI looks at the I just written. -/
theorem cliAndSeiActAtTheNextBoundary : Obligations.CliAndSeiActAtTheNextBoundary := by
  refine fun s pc hat => ⟨fun h => ?_, fun h => ?_⟩
  · obtain ⟨t, hstep, hpc, hp, hn⟩ := step_flagInstruction hat h rfl
    have hflags : FlagsBecome s t [(.i, false)] := flagsBecome_setFlag hp
    have hi : t.flag .i = false := hflags.2 .i
    have hq : (t.driveIrqLine true).irqAccepted = true := congrArg (!·) hi
    obtain ⟨u, hu, hentered⟩ := irq_entered (s := t.driveIrqLine true) hpc hn hq
    exact ⟨t, u, hstep, hpc, hflags, hu, hentered⟩
  · obtain ⟨t, hstep, hpc, hp, hn⟩ := step_flagInstruction hat h rfl
    have hflags : FlagsBecome s t [(.i, true)] := flagsBecome_setFlag hp
    have hi : t.flag .i = true := hflags.2 .i
    obtain ⟨u, hu, hentered⟩ := nmi_entered (s := t.nmiRequest) hpc rfl
    refine ⟨t, u, hstep, hpc, hflags, ⟨hpc, hn, fun _ => hi⟩, hu, ?_⟩
    -- the latch the entry clears was clear before the request
    rw [← hn] at hentered
    exact hentered

/-- Settles O47: the forms byte by byte; BRK is an exception taken from the value of PC. -/
theorem brkEntersTheIrqBrkVector : Obligations.BrkEntersTheIrqBrkVector :=
  ⟨formsAre_of_bytes (by decide +kernel), fun s pc hpc => ⟨breakFrom s pc, exec_brk hpc,
    takeException_entered s (pc + 1#16) (pushedByInstruction s.p) irqBrkVector⟩⟩

/-- Settles O48: the forms byte by byte; RTI is three reads on the stack. -/
theorem rtiRestoresStatusAndPc : Obligations.RtiRestoresStatusAndPc :=
  ⟨formsAre_of_bytes (by decide +kernel), fun s =>
    ⟨_, w16_toNat _ _, (exec_rti s).trans (congrArg Host.Outcome.next (returnFromException_frame s))⟩⟩

/-- Settles O50: RTI finds the three bytes that the entry by BRK left on the stack. -/
theorem rtiAfterBrkResumesPastTheSkippedByte : Obligations.RtiAfterBrkResumesPastTheSkippedByte := by
  intro s pc hwf hplain hpc
  have hentered := takeException_entered s (pc + 1#16) (pushedByInstruction s.p) irqBrkVector
  refine ⟨breakFrom s pc, exec_brk hpc, fun w hparams hsp hpushed => ⟨w.returnFromException, exec_rti w, ?_⟩⟩
  obtain ⟨hret, hback, hstatus⟩ := returnFromException_of_entered hwf hplain hentered hparams hsp hpushed
  rw [pulledStatus_pushedByInstruction] at hstatus
  exact ⟨hret, hback, hstatus, returnFromException_a w, returnFromException_x w, returnFromException_y w, returnFromException_mem w⟩

/-- Settles O49: the forms byte by byte; NOP's meaning is the state it is given. -/
theorem nopChangesNothing : Obligations.NopChangesNothing :=
  ⟨formsAre_of_bytes (by decide +kernel), fun s => exec_eq_meaning .nop s⟩

end Sys2Proof.Proofs
end

section
/-! What a step does at each boundary (30_encoding.md R87; 60_exceptions.md R240 to R248): without a PC, at an entry, and at a fetch of a
byte that is absent from the opcode table or of one that stands in it. -/

namespace Sys2Proof.Machine

open Sys2Proof.Claims

/-- PC without a value stops the step before anything is done (60_exceptions.md R241). -/
theorem step_of_no_pc {s : State} (h : s.pc = none) : step s = .fault .pcUndefined := by
  simp only [step, h]

theorem irqAccepted_iff (s : State) : s.irqAccepted = true ↔ s.irqLine = true ∧ s.flag .i = false := by
  simp [State.irqAccepted]

/-- Where PC has a value and no interrupt is entered, an instruction is fetched (60_exceptions.md R248). -/
theorem atFetch_of_not_atEntry {s : State} {pc : Addr} (hpc : s.pc = some pc) (h : ¬ AtEntry s) : AtFetch s pc := by
  have hkept : ¬ (s.nmiPending = true ∨ (s.irqLine = true ∧ s.flag .i = false)) := fun h' => h ⟨by simp [hpc], h'⟩
  exact ⟨hpc, Bool.of_not_eq_true fun hn => hkept (.inl hn), fun hl => Bool.of_not_eq_false fun hi => hkept (.inr ⟨hl, hi⟩)⟩

/-- Both interrupts are entered from the interrupted PC, with the latch clear afterwards and the same status byte pushed; they differ in
the vector (60_exceptions.md R245). -/
theorem entered_of_atEntry {s : State} {pc : Addr} (hpc : s.pc = some pc) (h : AtEntry s) :
    ∃ u vector, step s = .next { u with cycles := some 7 } ∧
      Entered { s with nmiPending := false, cycles := none, accesses := [] } u pc (interruptStatus s.p) vector := by
  cases hn : s.nmiPending with
  | true =>
    obtain ⟨u, hstep, hu⟩ := nmi_entered hpc hn
    exact ⟨u, _, hstep, hu⟩
  | false =>
    obtain ⟨u, hstep, hu⟩ := irq_entered hpc hn (irqAccepted_of_atEntry h hn)
    exact ⟨u, _, hstep, hn ▸ hu⟩

/-- The fetch of an absent byte ends after its one read (60_exceptions.md R240). -/
theorem fetchInstr_of_absent {s : State} {pc : Addr} (h : (s.peek pc).toNat ∈ absentBytes) :
    s.fetchInstr pc = .error (s.fetchByte pc) := by
  simp only [State.fetchInstr, fetchByte_fst, (opRow_eq_none_iff _).mpr h]

/-- The fetch of a byte of the table reads its operand bytes after it. -/
theorem fetchInstr_of_row {s : State} {pc : Addr} {r : OpRow} (h : opRow (s.peek pc) = some r) :
    s.fetchInstr pc = .ok ((s.fetchByte pc).2.fetchOperands (addrPlus pc 1) r.form) := by
  simp only [State.fetchInstr, fetchByte_fst, h]

/-- A step whose fetch ends early fails with the byte read and the state after it (30_encoding.md R86, R87). -/
theorem step_of_fetch_error {s : State} {pc : Addr} {o : Byte × State} (h : AtFetch s pc)
    (hf : s.beginCall.fetchInstr pc = .error o) : step s = .fault (.unsupportedOpcode o.1 o.2) := by
  have hq := irqAccepted_of_atFetch h
  obtain ⟨hpc, hn, -⟩ := h
  simp [step, hpc, hn, hq, hf]

theorem step_of_absent {s : State} {pc : Addr} (hat : AtFetch s pc) (h : (s.peek pc).toNat ∈ absentBytes) :
    step s = .fault (.unsupportedOpcode (s.peek pc) (s.beginCall.fetchByte pc).2) :=
  step_of_fetch_error hat (fetchInstr_of_absent (s := s.beginCall) h)

/-- A fetched instruction has a PC, so it completes, and the step with it. -/
theorem step_of_present {s : State} {pc : Addr} (hat : AtFetch s pc) (h : (s.peek pc).toNat ∉ absentBytes) :
    ∃ t, step s = .next t := by
  obtain ⟨r, hr⟩ := Option.ne_none_iff_exists'.mp (mt (opRow_eq_none_iff _).mp h)
  have hfetch := fetchInstr_of_row (s := s.beginCall) hr
  rw [step_of_fetch hat hfetch, exec_eq_stateAfter (fetchInstr_ok_pc hfetch)]
  exact ⟨_, rfl⟩

/-- With a PC, a step completes at an entry, and at a fetch of a byte that stands in the table. -/
theorem step_completes_iff {s : State} {pc : Addr} (hpc : s.pc = some pc) :
    (∃ t, step s = .next t) ↔ AtEntry s ∨ (s.peek pc).toNat ∉ absentBytes := by
  by_cases hentry : AtEntry s
  · obtain ⟨u, -, hstep, -⟩ := entered_of_atEntry hpc hentry
    exact iff_of_true ⟨_, hstep⟩ (.inl hentry)
  · have hat := atFetch_of_not_atEntry hpc hentry
    by_cases habsent : (s.peek pc).toNat ∈ absentBytes
    · exact iff_of_false (by rw [step_of_absent hat habsent]; nofun) (not_or_intro hentry (not_not_intro habsent))
    · exact iff_of_true (step_of_present hat habsent) (.inr habsent)

/-- A step without a PC is a fault, and any other is its work, whose result is a next state or a fault. -/
theorem step_ne_refused (s : State) (r : Refusal) : step s ≠ .refused r := by
  cases hpc : s.pc with
  | none => rw [step_of_no_pc hpc]; nofun
  | some pc =>
    rw [step_eq_resultOf hpc, resultOf]
    split <;> nofun

/-- A schedule ends at a step that fails (92_eei_decisions.md D20). -/
theorem runSchedule_step_of_fault {s : State} {f : Fault} (h : step s = .fault f) (es : List CallerEvent) :
    runSchedule (.step :: es) s = .fault f := by
  simp only [runSchedule, applyEvent, h]

end Sys2Proof.Machine
end

section
/-! What every instruction leaves alone or keeps (60_exceptions.md R242; 10_state.md R35; 00_scope.md R8), and which need PC. -/

namespace Sys2Proof.Machine

/-- The NMI latch, the IRQ line and the last cycle count are as they were. -/
def SameLatchLineCycles (s t : State) : Prop := t.nmiPending = s.nmiPending ∧ t.irqLine = s.irqLine ∧ t.cycles = s.cycles

theorem Effect.sameLatchLineCycles {m : Mnemonic} {o : Mode} {k : State → State} (h : Effect m o k) (s : State) : SameLatchLineCycles s (k s) := by
  cases h <;> simp [SameLatchLineCycles, result_eq]

theorem PcEffect.sameLatchLineCycles {m : Mnemonic} {k : State → Addr → State} (h : PcEffect m k) (s : State) (pc : Addr) :
    SameLatchLineCycles s (k s pc) := by
  cases h <;> simp [SameLatchLineCycles]

/-- The effects named first write PC, and give it a value; the field lemmas say that the others leave it. -/
theorem Effect.pc_ne_none {m : Mnemonic} {o : Mode} {k : State → State} (h : Effect m o k) {s : State} (hs : s.pc ≠ none) :
    (k s).pc ≠ none := by
  cases h
  case jmp | rts | rti => simp
  all_goals simpa [result_eq] using hs

theorem PcEffect.pc_ne_none {m : Mnemonic} {k : State → Addr → State} (h : PcEffect m k) {s : State} (hs : s.pc ≠ none) (pc : Addr) :
    (k s pc).pc ≠ none := by
  cases h with
  | brk => simp
  | jsr a => simp
  | branch m off _ => simp only [branchIf_eq, State.withPc_pc]; split <;> simp [hs]

theorem exec_sameLatchLineCycles {i : Instr} {s t : State} (h : exec i s = .next t) : SameLatchLineCycles s t := by
  obtain ⟨k, hk, rfl⟩ | ⟨k, pc, hk, -, rfl⟩ := exec_next_effect h
  · exact hk.sameLatchLineCycles s
  · exact hk.sameLatchLineCycles s pc

theorem exec_pc_ne_none {i : Instr} {s t : State} (h : exec i s = .next t) (hs : s.pc ≠ none) : t.pc ≠ none := by
  obtain ⟨k, hk, rfl⟩ | ⟨k, pc, hk, -, rfl⟩ := exec_next_effect h
  · exact hk.pc_ne_none hs
  · exact hk.pc_ne_none hs pc

/-- An instruction adds to the list of accesses. -/
theorem exec_accesses_extend {i : Instr} {s t : State} (h : exec i s = .next t) : ∃ l, t.accesses = s.accesses ++ l := by
  obtain ⟨l, hl, -⟩ := (exec_throughBus i).own s
  exact ⟨l, by simpa only [stateAfter, h] using hl⟩

/-- The mnemonics whose meaning looks at PC (log 11). -/
def pcReaders : List Mnemonic := [.brk, .jsr, .bcc, .bcs, .beq, .bne, .bmi, .bpl, .bvc, .bvs]

theorem PcEffect.mem_pcReaders {m : Mnemonic} {k : State → Addr → State} (h : PcEffect m k) : m ∈ pcReaders := by
  cases h with
  | brk => decide
  | jsr a => decide
  | branch m off hm => exact List.mem_append_right [.brk, .jsr] hm

theorem Effect.not_mem_pcReaders {m : Mnemonic} {o : Mode} {k : State → State} (h : Effect m o k) : m ∉ pcReaders := by
  cases h
  case shiftA hm _ => revert m; decide
  case shiftM hm _ _ => revert m; decide
  all_goals decide

/-- Without a PC an instruction stops if its mnemonic looks at PC, and completes if not. -/
theorem exec_of_no_pc (i : Instr) {s : State} (h : s.pc = none) :
    (i.mnemonic ∈ pcReaders ∧ exec i s = .fault .pcUndefined) ∨ (i.mnemonic ∉ pcReaders ∧ ∃ t, exec i s = .next t) := by
  obtain ⟨_, _, rfl, rfl, ⟨k, hk, he⟩ | ⟨k, hk, he⟩⟩ := exec_effect i
  · exact .inr ⟨hk.not_mem_pcReaders, _, he s⟩
  · exact .inl ⟨hk.mem_pcReaders, by rw [he, withPcValue, h]⟩

end Sys2Proof.Machine
end

section
/-! The status byte an interrupt entry pushes, as RTI pulls it (60_exceptions.md R245, R247). -/

namespace Sys2Proof.Machine

open Sys2Proof.Claims

theorem interruptStatus_eq (p : Byte) : interruptStatus p = pulledStatus (clearFlag p .b) := rfl

/-- Bit 5 is set in the pushed byte already. -/
theorem pulledStatus_interruptStatus (p : Byte) : pulledStatus (interruptStatus p) = interruptStatus p := by
  rw [interruptStatus_eq, pulledStatus, pulledStatus, BitVec.or_assoc, BitVec.or_self]

/-- Every flag but B is pushed as it is. -/
theorem getFlag_interruptStatus (p : Byte) {f : Flag} (h : f ≠ .b) : getFlag (interruptStatus p) f = getFlag p f := by
  rw [interruptStatus_eq, getFlag_pulledStatus, getFlag_clearFlag_of_ne p h]

end Sys2Proof.Machine
end

section
namespace Sys2Proof.Proofs

open Sys2Proof.Machine Sys2Proof.Claims

/-- Settles O7: the fetch ends after the one read, with PC past it, and a schedule ends at the fault. -/
theorem anAbsentOpcodeByteStopsTheStep : Obligations.AnAbsentOpcodeByteStopsTheStep := by
  intro s pc hat habsent
  have hstep := step_of_absent hat habsent
  exact ⟨hstep, runSchedule_step_of_fault hstep⟩

/-- Settles O8: PC is looked at first, and power-on leaves it without a value. -/
theorem aStepWithoutPcFails : Obligations.AStepWithoutPcFails :=
  fun _ => ⟨step_of_no_pc, step_of_no_pc rfl⟩

/-- Settles O9: the NMI is looked at before anything but PC. -/
theorem aPendingNmiIsEntered : Obligations.APendingNmiIsEntered :=
  ⟨fun _ => ⟨rfl, rfl⟩, fun _ _ hpc hn => nmi_entered hpc hn⟩

/-- Settles O10: the IRQ is looked at after the NMI. -/
theorem anUnmaskedIrqIsEntered : Obligations.AnUnmaskedIrqIsEntered :=
  fun s _ hpc hn hl hi => irq_entered hpc hn ((irqAccepted_iff s).mpr ⟨hl, hi⟩)

/-- Settles O11: without a PC no step completes, with one an entry does and the instruction that a byte of the table gives; no result of a
step is a refusal. -/
theorem aStepCompletesExactlyWhereTheSpecSaysSo : Obligations.AStepCompletesExactlyWhereTheSpecSaysSo := by
  refine fun s => ⟨?_, step_ne_refused s⟩
  cases hpc : s.pc with
  | none => simp [step_of_no_pc hpc]
  | some pc => simp [step_completes_iff hpc, AtEntry, hpc, or_assoc]

/-- Settles O12: an instruction completes where PC has a value; its effect keeps a PC and the inputs, its work on the bus the
parameters and the earlier accesses. -/
theorem noInstructionFailsWherePcHasAValue : Obligations.NoInstructionFailsWherePcHasAValue := by
  intro i s hpc
  have hexec := exec_eq_stateAfter (i := i) hpc
  obtain ⟨hparams, -⟩ := exec_keeps_bus hexec
  obtain ⟨hnmi, hirq, hcycles⟩ := exec_sameLatchLineCycles hexec
  exact ⟨_, hexec, exec_pc_ne_none hexec hpc, hparams, hnmi, hirq, hcycles, exec_accesses_extend hexec⟩

/-- Settles O13: an effect from the value of PC stops without it, every other effect completes. -/
theorem instructionsThatNeedPcStopWithoutIt : Obligations.InstructionsThatNeedPcStopWithoutIt := by
  intro i s hpc
  change (exec i s = .fault .pcUndefined ↔ i.mnemonic ∈ pcReaders) ∧ (i.mnemonic ∉ pcReaders → ∃ t, exec i s = .next t)
  obtain ⟨hm, hstop⟩ | ⟨hm, t, hnext⟩ := exec_of_no_pc i hpc
  · exact ⟨iff_of_true hstop hm, fun hm' => absurd hm hm'⟩
  · exact ⟨iff_of_false (by rw [hnext]; nofun) hm, fun _ => ⟨t, hnext⟩⟩

/-- Settles O51: RTI finds the three bytes that the entry left on the stack, whichever interrupt it was. -/
theorem rtiAfterAnInterruptResumesTheInterruptedProgram : Obligations.RtiAfterAnInterruptResumesTheInterruptedProgram := by
  intro s pc hwf hplain hpc hentry
  obtain ⟨u, vector, hstep, hentered⟩ := entered_of_atEntry hpc hentry
  refine ⟨_, hstep, fun w hparams hsp hpushed => ⟨w.returnFromException, exec_rti w, ?_⟩⟩
  obtain ⟨hret, hback, hstatus⟩ := returnFromException_of_entered
    (s := { s with nmiPending := false, cycles := none, accesses := [] }) hwf hplain hentered hparams hsp hpushed
  rw [pulledStatus_interruptStatus] at hstatus
  refine ⟨hret, hback, hstatus, fun f hf => ?_, returnFromException_a w, returnFromException_x w, returnFromException_y w,
    returnFromException_mem w⟩
  rw [State.flag, hstatus, getFlag_interruptStatus s.p hf, State.flag]

end Sys2Proof.Proofs
end

section
/-! Reset (70_reset_and_hazards.md R271; 10_state.md R41): what the routine leaves, in one record. -/

namespace Sys2Proof.Machine

open Sys2Proof.Claims

/-- Setting I writes bit 2, and bit 5, which every write of P keeps at 1 (10_state.md R25, R26). -/
theorem setFlag_i_true (p : Byte) : setFlag p .i true = p ||| 0x24#8 := by
  simp [setFlag, setBit, Flag.bit, unusedBit, BitVec.or_assoc]

/-- Reset: SP down by 3, I set, the latch cleared, and PC the word read at the reset vector, low byte first; these two reads are its only
accesses (R271; 92_eei_decisions.md D16). -/
theorem resetRoutine_frame (s : State) : s.resetRoutine = { s with
    sp := s.sp - 3#8, p := s.p ||| 0x24#8, nmiPending := false, cycles := none
    pc := some (w16 (s.peek 0xFFFC#16) (s.peekAfter 0xFFFC#16 0xFFFD#16))
    deviceState := (readsAt [0xFFFC#16, 0xFFFD#16] s).2.deviceState
    accesses := [.read 0xFFFC#16 (s.peek 0xFFFC#16), .read 0xFFFD#16 (s.peekAfter 0xFFFC#16 0xFFFD#16)] } := by
  apply State.ext <;> simp [State.resetRoutine, State.beginCall, State.peekAfter, readsAt, resetVector, setFlag_i_true]

end Sys2Proof.Machine
end

section
/-! The cycle count of an instruction that is not a branch (70_reset_and_hazards.md R281; 30_encoding.md R105; 00_scope.md R8). -/

namespace Sys2Proof.Machine

open Sys2Proof.Claims

section
variable {m : Mnemonic} (h : takenWhen m = none)
include h

/-- Only a branch has a form in Relative mode (30_encoding.md R99). -/
theorem relative_not_mem_modes : .relative ∉ m.modes := by
  cases m
  case bcc | bcs | beq | bne | bmi | bpl | bvc | bvs => cases h
  all_goals decide

/-- Nothing but a branch is ever taken. -/
theorem branchCondition_of_not_branch (p : Byte) : branchCondition m p = false := by
  cases m
  case bcc | bcs | beq | bne | bmi | bpl | bvc | bvs => cases h
  all_goals rfl

end

/-- Only an operand with a place in memory crosses a page, unless it is a branch's offset (30_encoding.md R90). -/
theorem operandCrosses_of_not_memory {o : Operand} (hrel : o.mode ≠ .relative) (hmem : ∀ f, o ≠ .memory f) (s : State) :
    operandCrosses o s = false := by
  cases o with
  | implicit | accumulator | immediate => rfl
  | relative off => exact absurd rfl hrel
  | memory f => exact absurd rfl (hmem f)

/-- The counts of an opcode byte of the table: the parameters' row for it, or else its entry's (00_scope.md R8). -/
theorem counts_of_opTab {op : Byte} {e : OpEntry} (h : opTab op = some e) (p : Params) :
    baseCycles p op = ((p.timingOf op).map TimingRow.base).getD e.base ∧
    pagePenalty p op = ((p.timingOf op).map TimingRow.pen).getD e.pen := by
  rw [baseCycles, pagePenalty, h]
  exact ⟨rfl, rfl⟩

/-- An instruction that is no branch takes its base count, and 1 more where its byte is marked and its operand crosses a page. -/
theorem cycleCount_of_not_branch {i : Instr} (h : takenWhen i.mnemonic = none) (s : State) :
    cycleCount i s = baseCycles s.params i.opcode +
      if pagePenalty s.params i.opcode = true ∧ operandCrosses i.operand s = true then 1 else 0 := by
  simp [cycleCount, branchExtra, branchCondition_of_not_branch h, Bool.toNat, Bool.cond_eq_ite]

end Sys2Proof.Machine
end

section
namespace Sys2Proof.Proofs

open Sys2Proof.Machine Sys2Proof.Claims

/-- Settles O14: the routine's record, and the same record after power-on, which leaves the bus as it is. -/
theorem resetRoutineFromAnyState : Obligations.ResetRoutineFromAnyState := by
  intro s
  refine ⟨resetRoutine_frame s, ?_⟩
  have hsp : 0xFD#8 - 3#8 = 0xFA#8 := by decide
  have hp : 0x34#8 ||| 0x24#8 = 0x34#8 := by decide
  dsimp only
  rw [resetRoutine_frame]
  exact ⟨rfl, rfl, rfl, hsp, hp, rfl⟩

/-- Settles O52: the step runs what it fetches and charges the count of its opcode byte; the parameters are as before the fetch. -/
theorem instructionsReturnBasePlusPageCrossing : Obligations.InstructionsReturnBasePlusPageCrossing := by
  intro s pc i e hat h hbranch hentry
  have hfetch := fetchInstr_of_decodesAt h
  obtain ⟨-, hparams, -⟩ := fetchInstr_ok_frame hfetch
  have hstep := step_of_fetch hat hfetch
  rw [exec_eq_stateAfter (fetchInstr_ok_pc hfetch)] at hstep
  rw [peek_of_decodesAt h] at hentry ⊢
  obtain ⟨hbase, hpen⟩ := counts_of_opTab hentry s.params
  have hcount := cycleCount_of_not_branch hbranch (fetched s pc i)
  rw [hparams, beginCall_params, hbase, hpen] at hcount
  refine ⟨_, hstep, fun f hf => ?_, fun hmem => ?_⟩
  · rw [hf] at hcount
    exact congrArg some hcount
  · have hrel : i.operand.mode ≠ .relative := fun hm => relative_not_mem_modes hbranch (hm ▸ mode_mem_modes i)
    rw [operandCrosses_of_not_memory hrel hmem, if_neg (by simp), Nat.add_zero] at hcount
    exact congrArg some hcount

end Sys2Proof.Proofs
end

section
/-! Power-on and then reset: the only fields of the caller's state that count are those power-on keeps (10_state.md R40, R41). -/

namespace Sys2Proof.Machine

/-- Power-on forgets everything but the inputs and the bus (70_reset_and_hazards.md R270). -/
theorem powerOn_congr {s t : State} (hparams : s.params = t.params) (hmem : s.mem = t.mem)
    (hdevice : s.deviceState = t.deviceState) (hirq : s.irqLine = t.irqLine) : s.powerOn = t.powerOn := by
  apply State.ext
  case params => exact hparams
  case mem => exact hmem
  case deviceState => exact hdevice
  case irqLine => exact hirq
  all_goals rfl

/-- The reset state is a fixed point of power-on and then reset: SP comes out as 0xFA, I is set already, and both bytes of the vector
are unlisted. -/
theorem resetRoutine_powerOn_reset : State.reset.powerOn.resetRoutine = State.reset := by
  rw [resetRoutine_frame]
  rfl

end Sys2Proof.Machine
end

section
namespace Sys2Proof.Proofs

open Sys2Proof.Machine

/-- Settles O16: power-on makes of such a state what it makes of the reset state, and reset brings that one back. -/
theorem theResetStateIsPowerOnThenReset : Obligations.TheResetStateIsPowerOnThenReset := by
  intro s hparams hmem hdevice hirq
  calc s.powerOn.resetRoutine
      = State.reset.powerOn.resetRoutine := congrArg State.resetRoutine (powerOn_congr hparams hmem hdevice hirq)
    _ = State.reset := resetRoutine_powerOn_reset

end Sys2Proof.Proofs
end
